-- ==== Sys2Proof/Config.lean ====
section
/-!
DEFINITION. What is fixed about the block. The source leaves no value, count or optional feature to an
implementation (00_scope.md R5, R6), so there is no parameter and no free value here: only the constants
the spec names, and the identity it gives the block (R1).
-/
namespace Sys2Proof.Config

/-- `W`, the width of the bit pattern (R5). -/
def W : Nat := 64

/-- `H`, the width of each half (R5). -/
def H : Nat := 32

/-- The width of the request word: one bit of `op` above a pattern (30_encoding.md R40). -/
def requestWidth : Nat := W + 1

/-- The block's identity string (R1, D19). -/
def identity : String :=
  "pstegma/java_double_serialization:Splitter (source document v7 as named by the requester)"

end Sys2Proof.Config
end

