-- ==== Sys2Proof/Word.lean ====
section
/-!
DEFINITION. The vectors the Splitter's ports and words carry (00_scope.md R5, R7; 30_encoding.md R35 to R37,
R40, R41). Every width is fixed: bit `i` of a vector has weight `2^i`.
-/
namespace Sys2Proof

/-- The bit pattern of a double, which is the double itself: 64 opaque bits (R35). -/
abbrev Pattern := BitVec 64

/-- One member of a split pair: 32 raw bits, no signedness (R36). -/
abbrev Half := BitVec 32

/-- The canonical request word REQ65 (R40). -/
abbrev ReqWord := BitVec 65

/-- The canonical response word (R41). -/
abbrev RspWord := BitVec 64

/-- The ordered pair `(low, high)`: low first (R37). -/
structure SplitPair where
  /-- Bits 31..0 of the pattern. -/
  low : Half
  /-- Bits 63..32 of the pattern. -/
  high : Half
  deriving DecidableEq, Repr

end Sys2Proof
end

