-- ==== Sys2Proof/Syntax.lean ====
section
/-!
DEFINITION. The block's two operations, one constructor per row of the opcode table (00_scope.md R2,
30_encoding.md R43). There is no third operation and no alias (R47).
-/
namespace Sys2Proof

/-- One invocation: an operation with its operands (10_state.md R20). -/
inductive Instr where
  /-- `SPLIT <value>` (40_split.md R48). -/
  | split (value : Pattern)
  /-- `LIGATE <low>, <high>`: low first, as the source orders the pair (41_ligate.md R54, R37). -/
  | ligate (low high : Half)
  deriving DecidableEq, Repr

/-- The mnemonic of the opcode table (R43). -/
def Instr.mnemonic : Instr → String
  | .split _ => "SPLIT"
  | .ligate _ _ => "LIGATE"

end Sys2Proof
end

