-- ==== Sys2Proof/WellFormed.lean ====
section
/-!
DEFINITION. What is a legal operation and what is a request word at all.
Every operand value is legal for either operation (30_encoding.md R35, R36, R44), so an `Instr`, whose
operands are vectors of the right width by type, is never ill-formed. What can be ill-formed is what a test
bench holds up to the block: "A vector that is not 65 fully defined bits is not a request word" (R44, R20).
-/
namespace Sys2Proof

/-- Every operation with its operands is legal: no value of any operand is excluded (R44). -/
def Instr.wf : Instr → Bool
  | .split _ => true
  | .ligate _ _ => true

/-- One wire as a test bench sees it: a bit, or undriven or unknown (`none`) (70_reset_and_hazards.md R94).
It exists only at the boundary: nothing inside the machine holds one (90_conflicts.md C7). -/
abbrev Signal := Option Bool

/-- The check on a bench's vector, least significant wire first: the request word's width. -/
def requestWidthOk (ws : List Signal) : Bool :=
  ws.length == Config.requestWidth

/-- The check on a bench's vector: every wire carries a defined bit (R20). -/
def fullyDefined (ws : List Signal) : Bool :=
  ws.all Option.isSome

/-- A bench's vector is a request word: 65 bits, all defined (R44). -/
def isRequestVector (ws : List Signal) : Bool :=
  requestWidthOk ws && fullyDefined ws

end Sys2Proof
end

