-- ==== Sys2Proof/Decode.lean ====
section
/-!
DEFINITION. Decoding a request word and encoding an operation (30_encoding.md R40 to R45), and the checks at
the boundary where a test bench's vector becomes a request word. The bit values of the encoding are the spec's
own decision (92_eei_decisions.md D6). There is no byte anywhere (20_memory.md R24): a request word is one
65-bit vector, numbered from its least significant bit, and is never laid out in memory.
-/
namespace Sys2Proof

/-- `req[64]`, the operation select: 0 SPLIT, 1 LIGATE (R40). -/
def ReqWord.op (w : ReqWord) : Bool := w.getLsbD 64

/-- `req[63:0]` read as SPLIT's operand (R40). -/
def ReqWord.value (w : ReqWord) : Pattern := w.extractLsb' 0 64

/-- `req[31:0]` read as LIGATE's operand `low` (R40). -/
def ReqWord.low (w : ReqWord) : Half := w.extractLsb' 0 32

/-- `req[63:32]` read as LIGATE's operand `high` (R40). -/
def ReqWord.high (w : ReqWord) : Half := w.extractLsb' 32 32

/-- The decoder: it looks at bit 64 and at nothing else to choose the operation, and every word decodes
(R43, R44). -/
def decode (w : ReqWord) : Instr :=
  if ReqWord.op w then .ligate (ReqWord.low w) (ReqWord.high w) else .split (ReqWord.value w)

/-- The encoder, written from the layout of R40: `op` above the operand field, `high` above `low`. -/
def encode : Instr → ReqWord
  | .split value => 0#1 ++ value
  | .ligate low high => 1#1 ++ (high ++ low)

/-- One row of the opcode map (R43): a word spells the row whose `matchBits` equals the word under `mask`. -/
structure TableRow where
  mnemonic : String
  mask : ReqWord
  matchBits : ReqWord
  deriving DecidableEq, Repr

/-- The complete opcode map (R43). -/
def opcodeTable : List TableRow :=
  [ ⟨"SPLIT", 0x10000000000000000#65, 0x00000000000000000#65⟩,
    ⟨"LIGATE", 0x10000000000000000#65, 0x10000000000000000#65⟩ ]

/-- The word spells the row (R43). -/
def TableRow.spells (r : TableRow) (w : ReqWord) : Bool := w &&& r.mask == r.matchBits

/-- Why a bench's vector is no request word. Nothing inside the machine raises one of these: the vector is
turned away before there is an invocation (R20, R44, 93_implementation_defined.md U6). -/
inductive DecodeError where
  /-- The vector has `width` bits and not 65 (R44). -/
  | wrongWidth (width : Nat)
  /-- Wire `index`, the first such, carries no defined bit (R20, R94). -/
  | undefinedBit (index : Nat)
  deriving DecidableEq, Repr

/-- The index of the first wire that carries no defined bit, counting from `i`. -/
def firstUndefined : List Signal → Nat → Option Nat
  | [], _ => none
  | none :: _, i => some i
  | some _ :: ws, i => firstUndefined ws (i + 1)

/-- The unsigned value of a vector of wires, least significant first (00_scope.md R7); an undefined wire, which
`requestOfSignals` has already turned away, adds nothing. -/
def signalsToNat : List Signal → Nat
  | [] => 0
  | b :: ws => (if b = some true then 1 else 0) + 2 * signalsToNat ws

/-- The boundary: a bench's vector becomes a request word, or is turned away by name. -/
def requestOfSignals (ws : List Signal) : Except DecodeError ReqWord :=
  if requestWidthOk ws then
    match firstUndefined ws 0 with
    | some i => .error (.undefinedBit i)
    | none => .ok (BitVec.ofNat 65 (signalsToNat ws))
  else .error (.wrongWidth ws.length)

/-- Decoding what a bench holds up: total on any vector of wires, rejecting by name. -/
def decodeSignals (ws : List Signal) : Except DecodeError Instr :=
  match requestOfSignals ws with
  | .ok w => .ok (decode w)
  | .error e => .error e

/-- A number of `nbits` bits as a request word: bits of the word at `nbits` and above are zero; a number with
a bit set above bit 64 is no request word (R44, R45). -/
def requestOfNat (nbits w : Nat) : Option ReqWord :=
  let v := w % 2 ^ nbits
  if v < 2 ^ Config.requestWidth then some (BitVec.ofNat 65 v) else none

/-- The instruction the decoder reads from a word numbered as the opcode table numbers it. -/
def decodeTableWord (nbits w : Nat) : Option Instr :=
  (requestOfNat nbits w).map decode

end Sys2Proof
end

