-- ==== Sys2Proof/Machine/Datapath.lean ====
section
/-!
DEFINITION. The wiring of the two datapaths and the response words (40_split.md R48, 41_ligate.md R54,
30_encoding.md R38, R41). Each operation is defined by its own rule; that both response words equal the request's
operand field (R41) is a law to prove, not how they are defined.
-/
namespace Sys2Proof.Machine

/-- The split datapath: `low = value[31:0]`, `high = value[63:32]` (R48). -/
def split (value : Pattern) : SplitPair where
  low := value.extractLsb' 0 32
  high := value.extractLsb' 32 32

/-- The ligate datapath: `value = (high, low)` concatenated, `high` the more significant (R54). -/
def ligate (low high : Half) : Pattern := high ++ low

/-- SPLIT's response word: `rsp[31:0] = low`, `rsp[63:32] = high` (R41). -/
def splitResponse (p : SplitPair) : RspWord := p.high ++ p.low

/-- LIGATE's response word: the value (R41). -/
def ligateResponse (value : Pattern) : RspWord := value

end Sys2Proof.Machine
end

