-- ==== Sys2Proof/Machine/State.lean ====
section
/-!
DEFINITION. The state of the model.
The block itself has none: "A model's state type for this block is the unit type." (10_state.md R10). What
stands beside that unit is the interface: the values on the input ports (R17, R18; not state of the block) and
the host's side of it, the moves it has still to make and the exchanges it has completed (70_reset_and_hazards.md
R98 to R100). The output ports are NOT fields: they are at all times a function of the input ports (R17, R18)
and are computed in Machine/Ops.lean.
-/
namespace Sys2Proof.Machine

/-- The block's architectural state: nothing (R10, R11 to R16, R21). -/
abbrev BlockState := Unit

/-- The two datapaths, which share no port, no wire and no logic (R18). -/
inductive Datapath where
  | split
  | ligate
  deriving DecidableEq, Repr

/-- What the host does next (R99, R100 (b)). -/
inductive HostMove where
  /-- One invocation, spelled by its request word (R40): present the operand field on the selected datapath's
  input ports and read its outputs. -/
  | invoke (req : ReqWord)
  /-- Both datapaths in the same instant: SPLIT of `value` and LIGATE of `low`, `high` (20_memory.md R30 (b),
  60_exceptions.md R79). -/
  | invokeBoth (value : Pattern) (low high : Half)
  /-- The host stops driving the inputs of a datapath, so that its outputs are no longer defined (R22, R89). -/
  | release (d : Datapath)
  deriving DecidableEq, Repr

/-- One completed invocation as words: the request and the response it got (R40, R41). -/
structure Exchange where
  request : ReqWord
  response : RspWord
  deriving DecidableEq, Repr

/-- The machine: the block's (empty) state, its input ports, and the host's side. -/
structure State where
  /-- The block's own state (R10). -/
  block : BlockState
  /-- Port `split_value_i[63:0]` (R17); `none` while the host does not drive it with a defined value (R22). -/
  splitValueI : Option Pattern
  /-- Port `ligate_low_i[31:0]` (R18); `none` while not driven. -/
  ligateLowI : Option Half
  /-- Port `ligate_high_i[31:0]` (R18); `none` while not driven. -/
  ligateHighI : Option Half
  /-- The host's moves not yet made, the next first. The model's own field: DESIGN CHOICE, log entry 1. -/
  pending : List HostMove
  /-- The invocations the host has completed, oldest first. The model's own field: DESIGN CHOICE, log entry 3. -/
  trace : List Exchange
  deriving DecidableEq, Repr

/-- Why the machine stops with a fault: there is no reason. The list of exception causes is empty
(60_exceptions.md R76), so this type has no constructor and no step can fault. -/
inductive Fault where
  deriving DecidableEq, Repr

/-- Why a step has no meaning. -/
inductive Refusal where
  /-- The dispatcher raises it for an instruction that has no meaning yet, by its mnemonic: safe. No arm does
  so any more; both instructions have their meaning. -/
  | notModelled (mnemonic : String)
  deriving DecidableEq, Repr

/-- The machine right after reset. The block has nothing to reset (R22, R89); no input port is driven yet, the
host has made no move and completed no exchange (log entries 1 to 3). -/
def State.reset : State where
  block := ()
  splitValueI := none
  ligateLowI := none
  ligateHighI := none
  pending := []
  trace := []

end Sys2Proof.Machine
end

