-- ==== Sys2Proof/Machine/Operands.lean ====
section
/-!
DEFINITION. How operands reach the block: each is the whole of an input port, taken as it stands
(30_encoding.md R42, 20_memory.md R26). There are no immediates, no addressing modes and no register operands.
A port keeps what the host presented until the host presents something else there or releases it
(log entry 2; the host's duty to hold its inputs is 70_reset_and_hazards.md R93).
-/
namespace Sys2Proof.Machine

/-- Present SPLIT's operand on `split_value_i` (10_state.md R17, R40). -/
def State.driveSplit (s : State) (value : Pattern) : State :=
  { s with splitValueI := some value }

/-- Present LIGATE's operands on `ligate_low_i` and `ligate_high_i` (R18, R40). -/
def State.driveLigate (s : State) (low high : Half) : State :=
  { s with ligateLowI := some low, ligateHighI := some high }

/-- The host stops driving a datapath's inputs (R22, 70_reset_and_hazards.md R89). -/
def State.release (s : State) : Datapath → State
  | .split => { s with splitValueI := none }
  | .ligate => { s with ligateLowI := none, ligateHighI := none }

end Sys2Proof.Machine
end

