-- ==== Sys2Proof/Machine/Ops.lean ====
section
/-!
DEFINITION. The named operations over the state: reading the output ports, recording an exchange, taking and
placing a host move. Taking an exception and returning from one have no counterpart: there is no trap mechanism
(60_exceptions.md R80, R81).
-/
namespace Sys2Proof.Machine

/-- The split datapath's outputs: at all times the function of `split_value_i` (10_state.md R17), and defined
only while that is (R22). -/
def State.splitOut (s : State) : Option SplitPair := s.splitValueI.map split

/-- Port `split_low_o[31:0]` (R17). -/
def State.splitLowO (s : State) : Option Half := s.splitOut.map SplitPair.low

/-- Port `split_high_o[31:0]` (R17). -/
def State.splitHighO (s : State) : Option Half := s.splitOut.map SplitPair.high

/-- Port `ligate_value_o[63:0]`: at all times the function of the two inputs (R18), and, as a whole port,
defined only while both are (R22). -/
def State.ligateValueO (s : State) : Option Pattern :=
  match s.ligateLowI, s.ligateHighI with
  | some low, some high => some (ligate low high)
  | _, _ => none

/-- The host notes a request and the response it got (R41; log entry 3). -/
def State.record (s : State) (request : ReqWord) (response : RspWord) : State :=
  { s with trace := s.trace ++ [⟨request, response⟩] }

/-- The host's next move and the state with that move taken; `none` when the run has ended (R98). -/
def State.nextMove (s : State) : Option (HostMove × State) :=
  match s.pending with
  | [] => none
  | m :: rest => some (m, { s with pending := rest })

/-- The host appends a move, between steps (R99; log entry 1). -/
def State.place (s : State) (m : HostMove) : State :=
  { s with pending := s.pending ++ [m] }

/-- Run `f` from the state an outcome leaves, if it leaves one. -/
def andThen (o : Host.Outcome State Fault Refusal)
    (f : State → Host.Outcome State Fault Refusal) : Host.Outcome State Fault Refusal :=
  match o with
  | .next t => f t
  | .fault r => .fault r
  | .refused r => .refused r

/-- The request words a move makes; a release makes none (R40). Of a move in one instant, SPLIT's is listed first:
no order can be observed (20_memory.md R30 (c); log entry 3). -/
def HostMove.requests : HostMove → List ReqWord
  | .invoke w => [w]
  | .invokeBoth value low high => [encode (.split value), encode (.ligate low high)]
  | .release _ => []

end Sys2Proof.Machine
end

