-- ==== Sys2Proof/Machine/Ligate.lean ====
section
/-!
DEFINITION. The ligate family: the meaning of LIGATE (41_ligate.md R54).
-/
namespace Sys2Proof.Machine

/-- LIGATE: the operands are on `ligate_low_i` and `ligate_high_i`, their concatenation is on `ligate_value_o`, and
the host reads it as the response word. No other port, no state and no flag is touched, and nothing can go wrong
(R54, R58, R59). -/
def execLigate (low high : Half) (s : State) : Host.Outcome State Fault Refusal :=
  .next ((s.driveLigate low high).record (encode (.ligate low high))
    (ligateResponse (ligate low high)))

end Sys2Proof.Machine
end

