-- ==== Sys2Proof/Machine/Split.lean ====
section
/-!
DEFINITION. The split family: the meaning of SPLIT (40_split.md R48).
-/
namespace Sys2Proof.Machine

/-- SPLIT: the operand is on `split_value_i`, the two halves are on `split_low_o` and `split_high_o`, and the host
reads them as the response word. No other port, no state and no flag is touched, and nothing can go wrong (R48, R52,
R53). -/
def execSplit (value : Pattern) (s : State) : Host.Outcome State Fault Refusal :=
  .next ((s.driveSplit value).record (encode (.split value)) (splitResponse (split value)))

end Sys2Proof.Machine
end

