-- ==== Sys2Proof/Machine/Dispatch.lean ====
section
/-! DEFINITION. The dispatcher: one arm per operation, each one call of its meaning (00_scope.md R2). -/
namespace Sys2Proof.Machine

def exec (i : Instr) (s : State) : Host.Outcome State Fault Refusal :=
  match i with
  | .split value => Sys2Proof.Machine.execSplit value s
  | .ligate low high => Sys2Proof.Machine.execLigate low high s

end Sys2Proof.Machine
end

