-- ==== Sys2Proof/Machine/Moves.lean ====
section
/-!
DEFINITION. What one move of the host does: an invocation on one datapath, an invocation on each in the same
instant, or the end of driving one (70_reset_and_hazards.md R99, R100).
-/
namespace Sys2Proof.Machine

/-- One move. Two invocations in the same instant are two invocations on datapaths that share nothing, so the
model makes them one after the other; which is first cannot be told (20_memory.md R30, 60_exceptions.md R79). -/
def runMove (m : HostMove) (s : State) : Host.Outcome State Fault Refusal :=
  match m with
  | .invoke w => exec (decode w) s
  | .invokeBoth value low high => andThen (exec (.split value) s) (exec (.ligate low high))
  | .release d => .next (s.release d)

end Sys2Proof.Machine
end

