-- ==== Sys2Proof/Machine/Step.lean ====
section
/-!
DEFINITION. One step of the machine: the host's next move is made. With no move left the run has ended
(70_reset_and_hazards.md R98) and a step changes nothing (log entry 1).
-/
namespace Sys2Proof.Machine

/-- One step. The block fetches nothing (10_state.md R12): which operation is performed is the host's next move. -/
def step (s : State) : Host.Outcome State Fault Refusal :=
  match s.nextMove with
  | none => .next s
  | some (m, t) => runMove m t

/-- The state with a request word put where `step` takes its next move: first in the host's list. A number that
is no request word (a bit set above bit 64) has no place there, and nothing is put (30_encoding.md R44). -/
def State.withFetchWord (s : State) (nbits w : Nat) : State :=
  match requestOfNat nbits w with
  | some req => { s with pending := .invoke req :: s.pending }
  | none => s

end Sys2Proof.Machine
end

