-- ==== Sys2Proof/Machine/Assembler.lean ====
section
/-!
DEFINITION. The written form of values and invocations (00_scope.md R8, 30_encoding.md R46): hexadecimal literals
with the most significant digit first, and one invocation a line in either of two equivalent spellings, with
`low` written before `high`. The notation is the spec's own decision (92_eei_decisions.md D7); no wire carries it.
Texts are lists of characters. How much blank space and which digit letters the reader takes is log entry 6.
-/
namespace Sys2Proof.Machine

/-- The two equivalent spellings of an invocation (R46). -/
inductive Spelling where
  /-- `SPLIT <value>`, `LIGATE <low>, <high>`. -/
  | assembler
  /-- `split(<value>)`, `ligate(<low>, <high>)`. -/
  | function
  deriving DecidableEq, Repr

/-- The letter or figure for one hexadecimal place: figures below ten, then the capital letters the spec's own
literals use (R8). -/
def hexDigit (d : Nat) : Char :=
  Char.ofNat (if d < 10 then '0'.toNat + d else 'A'.toNat + (d - 10))

/-- The value a character has as a hexadecimal place: the one of the sixteen that is written so. -/
def digitValue (c : Char) : Option Nat :=
  (List.range 16).find? fun d => hexDigit d == c

/-- The `n` low hexadecimal digits of a number, most significant first (R8). -/
def hexDigits : Nat → Nat → List Char
  | 0, _ => []
  | n + 1, x => hexDigit (x / 16 ^ n % 16) :: hexDigits n x

/-- A hexadecimal literal of `n` digits (R8). -/
def hexLiteral (n x : Nat) : List Char := '0' :: 'x' :: hexDigits n x

/-- A 64-bit value or response word is written with 16 digits (R8). -/
def writePattern (v : Pattern) : List Char := hexLiteral 16 v.toNat

/-- A 32-bit value is written with 8 digits (R8). -/
def writeHalf (h : Half) : List Char := hexLiteral 8 h.toNat

/-- A request word is written with 17 digits, the first 0 or 1 (R8). -/
def writeRequest (w : ReqWord) : List Char := hexLiteral 17 w.toNat

/-- One invocation as a line (R46). -/
def writeInstr : Spelling → Instr → List Char
  | .assembler, .split v => ['S', 'P', 'L', 'I', 'T', ' '] ++ writePattern v
  | .assembler, .ligate l h => ['L', 'I', 'G', 'A', 'T', 'E', ' '] ++ writeHalf l ++ [',', ' '] ++ writeHalf h
  | .function, .split v => ['s', 'p', 'l', 'i', 't', '('] ++ writePattern v ++ [')']
  | .function, .ligate l h => ['l', 'i', 'g', 'a', 't', 'e', '('] ++ writeHalf l ++ [',', ' '] ++ writeHalf h ++ [')']

/-- Read exactly these characters and return the rest. -/
def readWord : List Char → List Char → Option (List Char)
  | [], cs => some cs
  | w :: ws, c :: cs => if w = c then readWord ws cs else none
  | _ :: _, [] => none

/-- Skip blanks. -/
def skipBlanks : List Char → List Char
  | ' ' :: cs => skipBlanks cs
  | cs => cs

/-- Read exactly `n` hexadecimal digits onto `acc`. -/
def readDigits : Nat → Nat → List Char → Option (Nat × List Char)
  | 0, acc, cs => some (acc, cs)
  | n + 1, acc, c :: cs =>
    match digitValue c with
    | some d => readDigits n (16 * acc + d) cs
    | none => none
  | _ + 1, _, [] => none

/-- Read a hexadecimal literal of `n` digits, after blanks. -/
def readLiteral (n : Nat) (cs : List Char) : Option (Nat × List Char) :=
  (readWord ['0', 'x'] (skipBlanks cs)).bind (readDigits n 0)

/-- The end of a line: blanks, then nothing or a comment, which `;` begins (R46, D7). -/
def readEnd (cs : List Char) : Option Unit :=
  match skipBlanks cs with
  | [] => some ()
  | ';' :: _ => some ()
  | _ => none

/-- SPLIT's operand, then `close`, then the end of the line. -/
def readSplitOperand (close : List Char) (cs : List Char) : Option Instr :=
  (readLiteral 16 cs).bind fun (v, rest) =>
    (readWord close rest).bind fun rest =>
      (readEnd rest).map fun _ => .split (BitVec.ofNat 64 v)

/-- LIGATE's operands, low first, then `close`, then the end of the line. -/
def readLigateOperands (close : List Char) (cs : List Char) : Option Instr :=
  (readLiteral 8 cs).bind fun (l, rest) =>
    (readWord [','] rest).bind fun rest =>
      (readLiteral 8 rest).bind fun (h, rest) =>
        (readWord close rest).bind fun rest =>
          (readEnd rest).map fun _ => .ligate (BitVec.ofNat 32 l) (BitVec.ofNat 32 h)

/-- Read one line in either spelling (R46). -/
def readInstr (cs : List Char) : Option Instr :=
  match readWord ['S', 'P', 'L', 'I', 'T', ' '] cs with
  | some rest => readSplitOperand [] rest
  | none =>
    match readWord ['L', 'I', 'G', 'A', 'T', 'E', ' '] cs with
    | some rest => readLigateOperands [] rest
    | none =>
      match readWord ['s', 'p', 'l', 'i', 't', '('] cs with
      | some rest => readSplitOperand [')'] rest
      | none =>
        match readWord ['l', 'i', 'g', 'a', 't', 'e', '('] cs with
        | some rest => readLigateOperands [')'] rest
        | none => none

end Sys2Proof.Machine
end

