-- ==== Sys2Proof/Machine/Instances.lean ====
section
/-!
DEFINITION. Several instances of the block in one system: a host that needs more invocations at one instant uses
more instances, which have no identifier, share no state and exchange no signal (60_exceptions.md R85,
20_memory.md R30 (b)).
-/
namespace Sys2Proof.Machine

/-- A step of instance `k`, beside which the others stand still; a step of an instance the system does not have is
no step of the system. -/
def stepInstance (k : Nat) (blocks : List State) : Host.Outcome (List State) Fault Refusal :=
  match blocks[k]? with
  | none => .next blocks
  | some s =>
    match step s with
    | .next t => .next (blocks.set k t)
    | .fault r => .fault r
    | .refused r => .refused r

end Sys2Proof.Machine
end

