-- ==== Sys2Proof/Machine/Labels.lean ====
section
/-!
DEFINITION. The labels the spec puts on patterns and halves: the fields and classes of a double (30_encoding.md
R34, 42_contract_and_numerics.md R70, 93_implementation_defined.md G1, G2) and the signed reading of a half
(00_scope.md R9, G3). They are names for readers and test vectors: NO operation of the block reads any of them
(R34, R66, R69), and nothing in Machine/Step.lean imports this file. PRESUMED, log entry 5: the spec itself marks
them as general knowledge.
-/
namespace Sys2Proof.Machine

/-- Sign, `p[63]` (R34). -/
def signBit (p : Pattern) : Bool := p.getLsbD 63

/-- Exponent field, `p[62:52]` (R34). -/
def exponent (p : Pattern) : BitVec 11 := p.extractLsb' 52 11

/-- Fraction field, `p[51:0]` (R34). -/
def fraction (p : Pattern) : BitVec 52 := p.extractLsb' 0 52

/-- The bit that tells a quiet NaN from a signalling one, `p[51]` (R70). -/
def quietBit (p : Pattern) : Bool := p.getLsbD 51

/-- The classes of doubles by which the spec names its vectors. -/
inductive DoubleClass where
  | zero
  | subnormal
  | normal
  | infinity
  | quietNaN
  | signallingNaN
  deriving DecidableEq, Repr

/-- The class of a pattern (G2). -/
def classOf (p : Pattern) : DoubleClass :=
  if exponent p = 0 then
    if fraction p = 0 then .zero else .subnormal
  else if exponent p = 2047 then
    if fraction p = 0 then .infinity
    else if quietBit p then .quietNaN else .signallingNaN
  else .normal

/-- The pattern is a NaN: exponent field all ones, fraction not zero (R70). -/
def isNaN (p : Pattern) : Bool := exponent p == 2047 && fraction p != 0

/-- `signed32`, the two's complement reading of a half (R9). -/
def signed32 (v : Half) : Int :=
  if v.getLsbD 31 then (v.toNat : Int) - 2 ^ 32 else (v.toNat : Int)

end Sys2Proof.Machine
end

