-- ==== Sys2Proof/Machine/Procedure.lean ====
section
/-!
DEFINITION. The source's procedural descriptions of the two operations (40_split.md R49, 41_ligate.md R55,
42_contract_and_numerics.md R68). The hardware has no shifter, mask or OR gate: these are second definitions, which
compute what the wiring of Machine/Datapath.lean does. Where the source leaves a kind of shift or of widening open,
it is an argument here.
-/
namespace Sys2Proof.Machine

/-- The kinds of right shift the source does not choose between (R49). -/
inductive ShiftKind where
  | logical
  | arithmetic
  deriving DecidableEq, Repr

/-- The kinds of widening the implementation language may perform (R55). -/
inductive WidenKind where
  | zeroExtend
  | signExtend
  deriving DecidableEq, Repr

/-- The 32-bit all-ones mask as the original derives it: 64 ones shifted right by 32, logically (R68 (c)). -/
def lowMask : Pattern := BitVec.allOnes 64 >>> 32

/-- A shift right by the constant 32, of either kind (R68 (a)). -/
def shiftRight32 : ShiftKind → Pattern → Pattern
  | .logical, p => p >>> 32
  | .arithmetic, p => p.sshiftRight 32

/-- `widen64`, of either kind (R55). -/
def widen64 : WidenKind → Half → Pattern
  | .zeroExtend, h => h.setWidth 64
  | .signExtend, h => h.signExtend 64

/-- SPLIT as the source's procedure: mask, and shift then mask, each narrowed to its bits 31..0 (R49). -/
def splitProcedure (k : ShiftKind) (p : Pattern) : SplitPair where
  low := (p &&& lowMask).extractLsb' 0 32
  high := (shiftRight32 k p &&& lowMask).extractLsb' 0 32

/-- The upper operand of LIGATE's procedure: widened, then placed at bit position 32 (R55). -/
def ligateHi64 (k : WidenKind) (high : Half) : Pattern := widen64 k high <<< 32

/-- The lower operand of LIGATE's procedure: widened, then masked (R55, 90_conflicts.md C1). -/
def ligateLo64 (k : WidenKind) (low : Half) : Pattern := widen64 k low &&& lowMask

/-- LIGATE as the source's procedure: the OR of the two words (R55). -/
def ligateProcedure (kl kh : WidenKind) (low high : Half) : Pattern :=
  ligateHi64 kh high ||| ligateLo64 kl low

end Sys2Proof.Machine
end

