-- ==== Sys2Proof/Safety.lean ====
section
/-!
DEFINITION. What claims about runs are stated in: the one good outcome of a step, and the two invariants of the
model's own fields.
-/
namespace Sys2Proof.Machine

/-- The outcome is a next state: the only outcome the spec knows (60_exceptions.md R76). -/
def Completes (o : Host.Outcome State Fault Refusal) : Prop :=
  ∃ t, o = .next t

/-- The response carries exactly the request's operand field: at the level of words the block is the identity on
64 bits (30_encoding.md R41). -/
def Exchange.Sound (e : Exchange) : Prop :=
  ∀ k < 64, e.response.getLsbD k = e.request.getLsbD k

/-- Every exchange the host has recorded is sound. -/
def State.TraceSound (s : State) : Prop :=
  ∀ e ∈ s.trace, e.Sound

/-- The host drives the two inputs of the ligate datapath together or not at all: an invocation presents a value
on EVERY input port of its datapath (10_state.md R20). -/
def State.LigateDrivenTogether (s : State) : Prop :=
  s.ligateLowI.isSome = s.ligateHighI.isSome

/-- The exchange a request word leads to, written by the identity of R41 and not by either operation. -/
def identityExchange (w : ReqWord) : Exchange :=
  ⟨w, w.setWidth 64⟩

/-- From every state, SPLIT of `value` answers a next state whose split outputs are `low` and `high`. -/
def SplitGives (value : Pattern) (low high : Half) : Prop :=
  ∀ s : State, ∃ t : State, exec (.split value) s = .next t ∧
    t.splitLowO = some low ∧ t.splitHighO = some high

/-- From every state, LIGATE of `low` and `high` answers a next state whose ligate output is `value`. -/
def LigateGives (low high : Half) (value : Pattern) : Prop :=
  ∀ s : State, ∃ t : State, exec (.ligate low high) s = .next t ∧ t.ligateValueO = some value

/-- Two states show the same values on all six ports (10_state.md R17, R18). -/
def State.SamePorts (s t : State) : Prop :=
  s.splitValueI = t.splitValueI ∧ s.splitLowO = t.splitLowO ∧ s.splitHighO = t.splitHighO ∧
    s.ligateLowI = t.ligateLowI ∧ s.ligateHighI = t.ligateHighI ∧ s.ligateValueO = t.ligateValueO

end Sys2Proof.Machine
end

