-- ==== Sys2Proof/Certificates/Slice0/Obligations.lean ====
section
/-!
DEFINITION. The statements for the provers. Each docstring says which rule or passage of spec/ it formalises. The
block has no register, flag, memory or program counter (10_state.md R10 to R16), so a frame speaks of the six ports
and of the model's two own fields, `pending` and `trace` (log entries 1 and 3).
-/
open Sys2Proof Sys2Proof.Machine

/-! ## Encoding -/

/-- The words of 95_test_vectors.md section 2.4, written out from R40, decode to the operations listed there
(the layout is the spec's decision D6). -/
def Obligations.SpecWordsDecode : Prop :=
  decode 0x00000000000000000#65 = .split 0x0000000000000000#64 ∧
  decode 0x10000000000000000#65 = .ligate 0x00000000#32 0x00000000#32 ∧
  decode 0x0FFFFFFFFFFFFFFFF#65 = .split 0xFFFFFFFFFFFFFFFF#64 ∧
  decode 0x1FFFFFFFFFFFFFFFF#65 = .ligate 0xFFFFFFFF#32 0xFFFFFFFF#32 ∧
  decode 0x03FF0000000000000#65 = .split 0x3FF0000000000000#64 ∧
  decode 0x13FF0000000000000#65 = .ligate 0x00000000#32 0x3FF00000#32 ∧
  decode 0x10123456789ABCDEF#65 = .ligate 0x89ABCDEF#32 0x01234567#32 ∧
  decode 0x0DEADBEEFCAFEBABE#65 = .split 0xDEADBEEFCAFEBABE#64

/-- Every operation is well-formed and decoding its request word gives it back, at every operand value
(30_encoding.md sections 2 to 5; the layout is the spec's decision D6). -/
def Obligations.DecodeInvertsEncode : Prop :=
  ∀ i : Instr, i.wf = true ∧ decode (encode i) = i

/-- Encoding what a request word decodes to gives the word back: each of the 2^65 words has one meaning and no bit
of it is dropped (30_encoding.md section 5; the layout is the spec's decision D6). -/
def Obligations.EncodeInvertsDecode : Prop :=
  ∀ w : ReqWord, encode (decode w) = w

/-- Every request word spells exactly one row of the opcode map, the row of the instruction it decodes to, and
words that agree in bit 64 spell the same row (30_encoding.md section 4, the spec's decision D6). -/
def Obligations.EveryWordSpellsExactlyOneRow : Prop :=
  ∀ w : ReqWord,
    (∃ r ∈ opcodeTable, r.spells w = true ∧ r.mnemonic = (decode w).mnemonic ∧
      ∀ r' ∈ opcodeTable, r'.spells w = true → r' = r) ∧
    ∀ w' : ReqWord, w'.getLsbD 64 = w.getLsbD 64 → (decode w').mnemonic = (decode w).mnemonic

/-- The operand field read according to bit 64: for SPLIT bits 63..0 are the value; for LIGATE bits 31..0 are low
and bits 63..32 are high (30_encoding.md section 2, D6). -/
def Obligations.OperandsAreFieldsOfTheRequest : Prop :=
  ∀ w : ReqWord,
    (w.getLsbD 64 = false →
      ∃ v : Pattern, decode w = .split v ∧ ∀ k < 64, v.getLsbD k = w.getLsbD k) ∧
    (w.getLsbD 64 = true →
      ∃ low high : Half, decode w = .ligate low high ∧
        ∀ k < 32, low.getLsbD k = w.getLsbD k ∧ high.getLsbD k = w.getLsbD (32 + k))

/-- A bench's vector that is not 65 bits, or has an undefined bit, is turned away by name, with a wire that carries
no defined bit; a vector of 65 defined bits is the request word with those bits, and so the check accepts exactly the
vectors that decode (30_encoding.md section 5, last sentences; 93_implementation_defined.md U6). The names of the two
reasons, and that a wrong width is reported before an undefined bit, are the model's choice, log entry 11. -/
def Obligations.BenchVectorsAreCheckedAtTheBoundary : Prop :=
  (∀ ws : List Signal, ws.length ≠ 65 → decodeSignals ws = .error (.wrongWidth ws.length)) ∧
  (∀ ws : List Signal, ws.length = 65 → fullyDefined ws = false →
    ∃ i, decodeSignals ws = .error (.undefinedBit i) ∧ ws[i]? = some none) ∧
  (∀ w : ReqWord,
    decodeSignals ((List.range 65).map fun k => some (w.getLsbD k)) = .ok (decode w)) ∧
  (∀ ws : List Signal, isRequestVector ws = true ↔ ∃ i, decodeSignals ws = .ok i)

/-- A word numbered as the opcode table numbers it is the request word with those bits (30_encoding.md sections 2 and
5). The rest is the model's choice, log entry 11 (DESIGN CHOICE): a number with a bit set above bit 64 does not decode,
a number given in fewer than 65 bits is a request word whose upper bits are zero, and bits at and above the given
number are no part of the word. -/
def Obligations.TableWordsDecode : Prop :=
  ∀ nbits w : Nat,
    (65 ≤ nbits → w < 2 ^ 65 → decodeTableWord nbits w = some (decode (BitVec.ofNat 65 w))) ∧
    (65 ≤ nbits → 2 ^ 65 ≤ w → w < 2 ^ nbits → decodeTableWord nbits w = none) ∧
    (nbits < 65 → decodeTableWord nbits w = some (decode ((BitVec.ofNat nbits w).setWidth 65))) ∧
    (2 ^ nbits ≤ w → decodeTableWord nbits w = decodeTableWord nbits (w % 2 ^ nbits))

/-- Reading back a written invocation gives it, in either spelling and with a comment after it
(30_encoding.md section 7, D7; what else the reader takes is log entry 6). -/
def Obligations.WrittenInvocationsReadBack : Prop :=
  ∀ (sp : Spelling) (i : Instr) (comment : List Char),
    readInstr (writeInstr sp i) = some i ∧
    readInstr (writeInstr sp i ++ ' ' :: ';' :: comment) = some i

/-- The order of the halves in the two written forms of a LIGATE: in the assembler line low stands before high, in
the request word high before low; the request word has 17 digits, the first 0 for SPLIT and 1 for LIGATE
(00_scope.md section 4, 70_reset_and_hazards.md section 3; layout and notation are the spec's decisions D6 to D8). -/
def Obligations.WrittenOrderOfTheHalves : Prop :=
  (∀ v : Pattern, writeRequest (encode (.split v)) = '0' :: 'x' :: '0' :: hexDigits 16 v.toNat) ∧
  (∀ low high : Half,
    writeRequest (encode (.ligate low high)) =
      '0' :: 'x' :: '1' :: (hexDigits 8 high.toNat ++ hexDigits 8 low.toNat)) ∧
  (∀ low high : Half,
    writeInstr .assembler (.ligate low high) =
      ['L', 'I', 'G', 'A', 'T', 'E', ' ', '0', 'x'] ++ hexDigits 8 low.toNat ++
        [',', ' ', '0', 'x'] ++ hexDigits 8 high.toNat)

/-! ## The step -/

/-- When the host's next move is an invocation, a step is exec of the decoded instruction at the state with that
move taken (the model's queue of moves: log entry 1). -/
def Obligations.StepRunsTheDecodedRequest : Prop :=
  ∀ (s : State) (w : ReqWord) (rest : List HostMove), s.pending = .invoke w :: rest →
    step s = exec (decode w) { s with pending := rest }

/-- What a step does at the host's other moves: nothing when there is none left; the end of driving a datapath; both
datapaths in one instant, which the model runs as SPLIT and then LIGATE (the model's choices, log entries 1, 2, 3 and
7). -/
def Obligations.StepMakesTheHostsOtherMoves : Prop :=
  (∀ s : State, s.pending = [] → step s = .next s) ∧
  (∀ (s : State) (d : Datapath) (rest : List HostMove), s.pending = .release d :: rest →
    step s = .next ({ s with pending := rest }.release d)) ∧
  (∀ (s : State) (v : Pattern) (low high : Half) (rest : List HostMove),
    s.pending = .invokeBoth v low high :: rest →
    step s = andThen (exec (.split v) { s with pending := rest }) (exec (.ligate low high)))

/-- A request word put where step takes its next move is what the next step runs (the queue and the placing are the
model's choice, log entries 1 and 11). -/
def Obligations.PlacedWordRunsNext : Prop :=
  ∀ (s : State) (nbits w : Nat), 65 ≤ nbits → w < 2 ^ 65 →
    step (s.withFetchWord nbits w) = exec (decode (BitVec.ofNat 65 w)) s

/-- There is no fault and no refusal: every request word completes in every state, every step completes, and the
type of faults has no member (60_exceptions.md sections 1 and 6, 30_encoding.md section 5). -/
def Obligations.EveryStepAnswersANextState : Prop :=
  (∀ (w : ReqWord) (s : State), Completes (exec (decode w) s)) ∧
  (∀ s : State, Completes (step s)) ∧ ¬ Nonempty Fault

/-! ## SPLIT -/

/-- R48, whole: the operand is on `split_value_i`, the two halves are on the output ports bit by bit, whatever the
state; the encoding, the line and the response word; nothing of the block is written and the other datapath's ports
keep their values; the corner cases (a) to (h) and the worked example. That each input bit reaches exactly one output
bit, uninverted, is what the bit equations say. -/
def Obligations.SplitDeliversBothHalves : Prop :=
  (∀ value : Pattern, ∃ low high : Half,
    (∀ s : State, ∃ t : State, exec (.split value) s = .next t ∧
      t.splitValueI = some value ∧ t.splitLowO = some low ∧ t.splitHighO = some high ∧
      t.block = s.block ∧ t.ligateLowI = s.ligateLowI ∧ t.ligateHighI = s.ligateHighI ∧
      t.ligateValueO = s.ligateValueO) ∧
    (∀ i < 32, low.getLsbD i = value.getLsbD i ∧ high.getLsbD i = value.getLsbD (32 + i)) ∧
    splitResponse ⟨low, high⟩ = high ++ low) ∧
  (∀ value : Pattern, (encode (.split value)).getLsbD 64 = false ∧
    (∀ k < 64, (encode (.split value)).getLsbD k = value.getLsbD k) ∧
    writeInstr .assembler (.split value) = ['S', 'P', 'L', 'I', 'T', ' '] ++ writePattern value) ∧
  SplitGives 0x0000000000000000#64 0x00000000#32 0x00000000#32 ∧
  SplitGives 0x8000000000000000#64 0x00000000#32 0x80000000#32 ∧
  SplitGives 0x0000000080000000#64 0x80000000#32 0x00000000#32 ∧
  SplitGives 0x0000000100000000#64 0x00000000#32 0x00000001#32 ∧
  SplitGives 0x7FF8000000000001#64 0x00000001#32 0x7FF80000#32 ∧
  SplitGives 0x7FF0000000000001#64 0x00000001#32 0x7FF00000#32 ∧
  SplitGives 0x7FF0000000000000#64 0x00000000#32 0x7FF00000#32 ∧
  SplitGives 0xFFF0000000000000#64 0x00000000#32 0xFFF00000#32 ∧
  SplitGives 0x0000000000000001#64 0x00000001#32 0x00000000#32 ∧
  SplitGives 0xFFFFFFFFFFFFFFFF#64 0xFFFFFFFF#32 0xFFFFFFFF#32 ∧
  SplitGives 0x3FF0000000000000#64 0x00000000#32 0x3FF00000#32 ∧
  encode (.split 0x3FF0000000000000#64) = 0x03FF0000000000000#65 ∧
  splitResponse ⟨0x00000000#32, 0x3FF00000#32⟩ = 0x3FF0000000000000#64

/-- R52: for every pattern SPLIT answers a next state, from every state, and its pair is unique. -/
def Obligations.SplitIsTotalWithOneResult : Prop :=
  ∀ value : Pattern, (∀ s : State, Completes (exec (.split value) s)) ∧
    ∃ p : SplitPair, SplitGives value p.low p.high ∧
      ∀ q : SplitPair, SplitGives value q.low q.high → q = p

/-- What SPLIT leaves unchanged: the block, every port of the ligate datapath, the host's moves, and every earlier
exchange; it adds one exchange, its own (40_split.md, "SPLIT has no side effect"; the fields `pending` and `trace`
are the model's, log entries 1 and 3). -/
def Obligations.SplitFrame : Prop :=
  ∀ (value : Pattern) (s t : State), exec (.split value) s = .next t →
    t.block = s.block ∧ t.ligateLowI = s.ligateLowI ∧ t.ligateHighI = s.ligateHighI ∧
    t.ligateValueO = s.ligateValueO ∧ t.pending = s.pending ∧
    t.trace = s.trace ++
      [⟨encode (.split value), value.extractLsb' 32 32 ++ value.extractLsb' 0 32⟩]

/-- The source's procedure with either kind of right shift computes the wiring, and the upper 32 bits of both
intermediate words are zero (40_split.md section SPLIT, the procedure). -/
def Obligations.SplitProcedureComputesTheWiring : Prop :=
  ∀ (k : ShiftKind) (p : Pattern), splitProcedure k p = split p ∧
    ∀ i, 32 ≤ i → (p &&& lowMask).getLsbD i = false ∧ (shiftRight32 k p &&& lowMask).getLsbD i = false

/-! ## LIGATE -/

/-- R54, whole: the operands are on the two input ports, the concatenation is on `ligate_value_o` bit by bit,
whatever the state; the encoding, the line and the response word; nothing of the block is written and the other
datapath's ports keep their values; the corner cases (a) to (g) and the worked example. -/
def Obligations.LigateDeliversTheConcatenation : Prop :=
  (∀ low high : Half, ∃ value : Pattern,
    (∀ s : State, ∃ t : State, exec (.ligate low high) s = .next t ∧
      t.ligateLowI = some low ∧ t.ligateHighI = some high ∧ t.ligateValueO = some value ∧
      t.block = s.block ∧ t.splitValueI = s.splitValueI ∧ t.splitLowO = s.splitLowO ∧
      t.splitHighO = s.splitHighO) ∧
    (∀ i < 32, value.getLsbD i = low.getLsbD i ∧ value.getLsbD (32 + i) = high.getLsbD i) ∧
    ligateResponse value = value) ∧
  (∀ low high : Half, (encode (.ligate low high)).getLsbD 64 = true ∧
    (∀ k < 32, (encode (.ligate low high)).getLsbD k = low.getLsbD k ∧
      (encode (.ligate low high)).getLsbD (32 + k) = high.getLsbD k) ∧
    writeInstr .assembler (.ligate low high) =
      ['L', 'I', 'G', 'A', 'T', 'E', ' '] ++ writeHalf low ++ [',', ' '] ++ writeHalf high) ∧
  LigateGives 0x00000000#32 0x00000000#32 0x0000000000000000#64 ∧
  LigateGives 0x00000000#32 0x80000000#32 0x8000000000000000#64 ∧
  LigateGives 0xFFFFFFFF#32 0x00000000#32 0x00000000FFFFFFFF#64 ∧
  LigateGives 0x80000000#32 0x00000000#32 0x0000000080000000#64 ∧
  LigateGives 0x00000000#32 0xFFFFFFFF#32 0xFFFFFFFF00000000#64 ∧
  LigateGives 0xFFFFFFFF#32 0xFFFFFFFF#32 0xFFFFFFFFFFFFFFFF#64 ∧
  LigateGives 0x00000001#32 0x7FF00000#32 0x7FF0000000000001#64 ∧
  LigateGives 0x3FF00000#32 0x00000000#32 0x000000003FF00000#64 ∧
  LigateGives 0x00000000#32 0x3FF00000#32 0x3FF0000000000000#64 ∧
  LigateGives 0x12345678#32 0x12345678#32 0x1234567812345678#64 ∧
  encode (.ligate 0x00000000#32 0x3FF00000#32) = 0x13FF0000000000000#65 ∧
  ligateResponse 0x3FF0000000000000#64 = 0x3FF0000000000000#64

/-- R58: for every pair LIGATE answers a next state, from every state, and its value is unique. -/
def Obligations.LigateIsTotalWithOneResult : Prop :=
  ∀ low high : Half, (∀ s : State, Completes (exec (.ligate low high) s)) ∧
    ∃ v : Pattern, LigateGives low high v ∧ ∀ u : Pattern, LigateGives low high u → u = v

/-- What LIGATE leaves unchanged: the block, every port of the split datapath, the host's moves, and every earlier
exchange; it adds one exchange, its own (41_ligate.md, "LIGATE has no side effect"; the fields `pending` and `trace`
are the model's, log entries 1 and 3). -/
def Obligations.LigateFrame : Prop :=
  ∀ (low high : Half) (s t : State), exec (.ligate low high) s = .next t →
    t.block = s.block ∧ t.splitValueI = s.splitValueI ∧ t.splitLowO = s.splitLowO ∧
    t.splitHighO = s.splitHighO ∧ t.pending = s.pending ∧
    t.trace = s.trace ++ [⟨encode (.ligate low high), high ++ low⟩]

/-- The source's procedure with either kind of widening of either operand computes the wiring; its two words share
no set bit, so their OR is also their sum, with no carry (41_ligate.md section LIGATE, the procedure). -/
def Obligations.LigateProcedureComputesTheWiring : Prop :=
  ∀ (kl kh : WidenKind) (low high : Half),
    ligateProcedure kl kh low high = ligate low high ∧
    ligateLo64 kl low = low.setWidth 64 ∧
    ligateHi64 kh high &&& ligateLo64 kl low = 0#64 ∧
    (ligate low high).toNat = (ligateHi64 kh high).toNat + (ligateLo64 kl low).toNat

/-- No sign extension: whatever their top bits, low gives exactly bits 31..0 and high exactly bits 63..32; the wrong
build that extends low would force the upper half to all ones (41_ligate.md section LIGATE). -/
def Obligations.LigateDoesNotSignExtend : Prop :=
  ∀ low high : Half,
    (ligate low high).extractLsb' 32 32 = high ∧ (ligate low high).extractLsb' 0 32 = low ∧
    (low.getLsbD 31 = true →
      (low.signExtend 64 ||| (high.setWidth 64 <<< 32)).extractLsb' 32 32 = BitVec.allOnes 32)

/-- No signalling NaN is quieted, no NaN canonicalised and no subnormal flushed, in either direction: for every pattern
of these classes SPLIT delivers halves that keep all its bits and LIGATE of them delivers the pattern, and for every
pair that joins to one LIGATE delivers the join and SPLIT of it the pair. Nor is the pattern of 1.0 cast to the integer
1 or the integer 1 converted to the pattern of 1.0; the six vectors are those of 95_test_vectors.md section 2.3 and, for
the largest subnormal, V12 (40_split.md and 41_ligate.md, "a bit reinterpretation, never a numeric conversion"). The
classes are labels, log entry 5 (PRESUMED, the spec's general knowledge). -/
def Obligations.NeitherOperationConvertsNumerically : Prop :=
  (∀ p : Pattern,
    classOf p = .signallingNaN ∨ classOf p = .quietNaN ∨ classOf p = .subnormal →
    ∃ low high : Half, SplitGives p low high ∧ LigateGives low high p ∧
      ∀ i < 32, low.getLsbD i = p.getLsbD i ∧ high.getLsbD i = p.getLsbD (32 + i)) ∧
  (∀ low high : Half,
    classOf (high ++ low) = .signallingNaN ∨ classOf (high ++ low) = .quietNaN ∨
      classOf (high ++ low) = .subnormal →
    LigateGives low high (high ++ low) ∧ SplitGives (high ++ low) low high) ∧
  SplitGives 0x3FF0000000000000#64 0x00000000#32 0x3FF00000#32 ∧
  LigateGives 0x00000001#32 0x00000000#32 0x0000000000000001#64 ∧
  SplitGives 0x7FF0000000000001#64 0x00000001#32 0x7FF00000#32 ∧
  LigateGives 0x00000001#32 0x7FF00000#32 0x7FF0000000000001#64 ∧
  SplitGives 0x000FFFFFFFFFFFFF#64 0xFFFFFFFF#32 0x000FFFFF#32 ∧
  LigateGives 0xFFFFFFFF#32 0x000FFFFF#32 0x000FFFFFFFFFFFFF#64

/-! ## The contract -/

/-- R60: LIGATE of what SPLIT delivers is the pattern it started from, in all 64 bits, for every pattern. -/
def Obligations.LigateOfSplitIsTheIdentity : Prop :=
  ∀ v : Pattern, ∃ low high : Half, SplitGives v low high ∧ LigateGives low high v

/-- R61: SPLIT of what LIGATE delivers is the pair it started from, for every pair. -/
def Obligations.SplitOfLigateIsTheIdentity : Prop :=
  ∀ low high : Half, ∃ v : Pattern, LigateGives low high v ∧ SplitGives v low high

/-- SPLIT and LIGATE are mutually inverse bijections between patterns and ordered pairs (42_contract_and_numerics.md
section 1, the third rule, which the spec derives from R60 and R61). -/
def Obligations.OperationsAreBijections : Prop :=
  Function.Bijective split ∧ Function.Bijective (fun p : SplitPair => ligate p.low p.high) ∧
  (∀ v : Pattern, ∃! p : SplitPair, ligate p.low p.high = v) ∧
  (∀ p : SplitPair, ∃! v : Pattern, split v = p)

/-- The two laws of the round trip do not fix which half is which: the build with the halves exchanged on both sides,
and every build behind a bijection of the patterns, satisfies both, yet the exchanged one is not this block, as the
pattern of 1.0 shows (42_contract_and_numerics.md section 1, the fourth rule). -/
def Obligations.RoundTripAloneDoesNotFixTheLayout : Prop :=
  (∀ v : Pattern, ligate (split v).low (split v).high = v) ∧
  (∀ v : Pattern, (fun low high => ligate high low) (split v).high (split v).low = v) ∧
  (∀ low high : Half, (split (ligate high low)).high = low ∧ (split (ligate high low)).low = high) ∧
  (∀ f g : Pattern → Pattern, (∀ v, g (f v) = v) → (∀ v, f (g v) = v) →
    (∀ v, g (ligate (split (f v)).low (split (f v)).high) = v) ∧
    (∀ low high, split (f (g (ligate low high))) = ⟨low, high⟩)) ∧
  split 0x3FF0000000000000#64 = ⟨0x00000000#32, 0x3FF00000#32⟩ ∧
  (⟨(split 0x3FF0000000000000#64).high, (split 0x3FF0000000000000#64).low⟩ : SplitPair) ≠
    split 0x3FF0000000000000#64

/-- Both operations commute with AND, OR, XOR and NOT, and flipping bit 31 of high flips the sign bit and nothing
else (42_contract_and_numerics.md section 1, the last rule: a law of the spec's own, not in the source). -/
def Obligations.OperationsCommuteWithBitwiseOperations : Prop :=
  (∀ a b : Pattern,
    split (a &&& b) = ⟨(split a).low &&& (split b).low, (split a).high &&& (split b).high⟩ ∧
    split (a ||| b) = ⟨(split a).low ||| (split b).low, (split a).high ||| (split b).high⟩ ∧
    split (a ^^^ b) = ⟨(split a).low ^^^ (split b).low, (split a).high ^^^ (split b).high⟩ ∧
    split (~~~a) = ⟨~~~(split a).low, ~~~(split a).high⟩) ∧
  (∀ l h l' h' : Half,
    ligate (l &&& l') (h &&& h') = ligate l h &&& ligate l' h' ∧
    ligate (l ||| l') (h ||| h') = ligate l h ||| ligate l' h' ∧
    ligate (l ^^^ l') (h ^^^ h') = ligate l h ^^^ ligate l' h' ∧
    ligate (~~~l) (~~~h) = ~~~(ligate l h)) ∧
  (∀ l h : Half, ligate l (h ^^^ 0x80000000#32) = ligate l h ^^^ 0x8000000000000000#64)

/-- The layout bit by bit and as unsigned integers: low is the remainder and high the quotient by 2^32
(30_encoding.md section 1; the consequences are the spec's own inference). -/
def Obligations.HalvesAreQuotientAndRemainder : Prop :=
  ∀ p : Pattern,
    (split p).low.toNat = p.toNat % 2 ^ 32 ∧ (split p).high.toNat = p.toNat / 2 ^ 32 ∧
    p.toNat = (split p).high.toNat * 2 ^ 32 + (split p).low.toNat ∧
    (∀ i < 32, (split p).low.getLsbD i = p.getLsbD i ∧ (split p).high.getLsbD i = p.getLsbD (32 + i)) ∧
    p = (split p).high ++ (split p).low

/-- Where the fields of a double lie in its halves, and how its being a NaN reads there (30_encoding.md section 1;
42_contract_and_numerics.md section 3). The fields are labels the spec marks as general knowledge: log entry 5. -/
def Obligations.FieldsOfTheDoubleInTheHalves : Prop :=
  ∀ p : Pattern,
    signBit p = (split p).high.getLsbD 31 ∧
    exponent p = (split p).high.extractLsb' 20 11 ∧
    fraction p = (split p).high.extractLsb' 0 20 ++ (split p).low ∧
    quietBit p = (split p).high.getLsbD 19 ∧
    (isNaN p = true ↔
      (split p).high.extractLsb' 20 11 = 2047#11 ∧
        ((split p).high.extractLsb' 0 20 ≠ 0#20 ∨ (split p).low ≠ 0#32)) ∧
    (isNaN p = true ↔ classOf p = .quietNaN ∨ classOf p = .signallingNaN)

/-- +0.0 and -0.0 stay different through SPLIT, in high alone, and LIGATE gives each its own sign
(42_contract_and_numerics.md section 3, signed zero). That low is zero in both cases is the spec's own inference there,
marked as derived from its rule of SPLIT. -/
def Obligations.SignedZerosStayDistinct : Prop :=
  SplitGives 0x0000000000000000#64 0x00000000#32 0x00000000#32 ∧
  SplitGives 0x8000000000000000#64 0x00000000#32 0x80000000#32 ∧
  LigateGives 0x00000000#32 0x00000000#32 0x0000000000000000#64 ∧
  LigateGives 0x00000000#32 0x80000000#32 0x8000000000000000#64 ∧
  (0x0000000000000000#64 : Pattern) ≠ 0x8000000000000000#64

/-- Exchanging two different halves gives another pair and another double (30_encoding.md section 1, the order of
the pair; 70_reset_and_hazards.md section 3). -/
def Obligations.ExchangedHalvesGiveAnotherDouble : Prop :=
  ∀ low high : Half, low ≠ high →
    (⟨high, low⟩ : SplitPair) ≠ ⟨low, high⟩ ∧
    ∃ v u : Pattern, LigateGives low high v ∧ LigateGives high low u ∧ u ≠ v

/-- The signed reading of a half has bit 31 as its sign, tells all halves apart, and keeps to 32 bits (00_scope.md
section 4; two's complement is the spec's general knowledge, log entry 5). -/
def Obligations.SignedReadingHasBit31AsItsSign : Prop :=
  (∀ v : Half, (signed32 v < 0 ↔ v.getLsbD 31 = true) ∧ -2147483648 ≤ signed32 v ∧
    signed32 v ≤ 2147483647) ∧
  (∀ v u : Half, signed32 v = signed32 u → v = u) ∧
  signed32 0xBFF00000#32 = -1074790400

/-- The laws of the shifts, the mask and the OR that the procedures name (42_contract_and_numerics.md section 2). -/
def Obligations.ShiftAndMaskLaws : Prop :=
  lowMask = 0x00000000FFFFFFFF#64 ∧
  ∀ p q : Pattern, ∀ i < 64,
    (shiftRight32 .logical p).getLsbD i = (if i < 32 then p.getLsbD (32 + i) else false) ∧
    (shiftRight32 .arithmetic p).getLsbD i = (if i < 32 then p.getLsbD (32 + i) else p.getLsbD 63) ∧
    (p <<< 32).getLsbD i = (if i < 32 then false else p.getLsbD (i - 32)) ∧
    (p &&& lowMask).getLsbD i = (if i < 32 then p.getLsbD i else false) ∧
    ((∀ k < 64, (p.getLsbD k && q.getLsbD k) = false) → (p ||| q).toNat = p.toNat + q.toNat)

/-! ## The wires -/

/-- Every input bit reaches exactly one output bit: flipping input bit k flips that output bit and no other
(40_split.md and 41_ligate.md, "Bit by bit"; it is what 70_reset_and_hazards.md section 3 says of an unknown bit). -/
def Obligations.EachInputBitReachesOneOutputBit : Prop :=
  (∀ (v : Pattern) (k : Nat), k < 64 → ∀ i < 32,
    (split (v ^^^ BitVec.twoPow 64 k)).low.getLsbD i = ((split v).low.getLsbD i ^^ decide (i = k)) ∧
    (split (v ^^^ BitVec.twoPow 64 k)).high.getLsbD i =
      ((split v).high.getLsbD i ^^ decide (32 + i = k))) ∧
  (∀ (low high : Half) (k : Nat), k < 32 → ∀ i < 64,
    (ligate (low ^^^ BitVec.twoPow 32 k) high).getLsbD i =
      ((ligate low high).getLsbD i ^^ decide (i = k)) ∧
    (ligate low (high ^^^ BitVec.twoPow 32 k)).getLsbD i =
      ((ligate low high).getLsbD i ^^ decide (i = 32 + k)))

/-- If every input bit is the old one's or the new one's, so is every output bit: what a host that changes an input
while reading may see (70_reset_and_hazards.md section 3, input stability; no move of the model does this, log entry 4). -/
def Obligations.MixedInputsGiveMixedOutputs : Prop :=
  (∀ old new mix : Pattern,
    (∀ k < 64, mix.getLsbD k = old.getLsbD k ∨ mix.getLsbD k = new.getLsbD k) →
    ∀ i < 32,
      ((split mix).low.getLsbD i = (split old).low.getLsbD i ∨
        (split mix).low.getLsbD i = (split new).low.getLsbD i) ∧
      ((split mix).high.getLsbD i = (split old).high.getLsbD i ∨
        (split mix).high.getLsbD i = (split new).high.getLsbD i)) ∧
  (∀ old new mix : SplitPair,
    (∀ k < 32, (mix.low.getLsbD k = old.low.getLsbD k ∨ mix.low.getLsbD k = new.low.getLsbD k) ∧
      (mix.high.getLsbD k = old.high.getLsbD k ∨ mix.high.getLsbD k = new.high.getLsbD k)) →
    ∀ i < 64,
      (ligate mix.low mix.high).getLsbD i = (ligate old.low old.high).getLsbD i ∨
        (ligate mix.low mix.high).getLsbD i = (ligate new.low new.high).getLsbD i)

/-- The loop closed through both datapaths has no determined value: every pattern is consistent with it, so not
exactly one is (70_reset_and_hazards.md section 3, no combinational loop; the model has no such wiring, log entry 4). -/
def Obligations.ClosedLoopHasNoDeterminedValue : Prop :=
  (∀ v : Pattern, ligate (split v).low (split v).high = v) ∧
  ¬ ∃! v : Pattern, ligate (split v).low (split v).high = v

/-- In every state the outputs are the function of the inputs, and an output is defined exactly while the inputs it
depends on are (10_state.md sections 2 and 4). That `ligate_value_o` is defined, as a whole port, exactly when both its
inputs are is the model's reading, log entry 8 (DEDUCED). -/
def Obligations.OutputsFollowTheInputs : Prop :=
  (∀ (s : State) (v : Pattern), s.splitValueI = some v →
    s.splitLowO = some (split v).low ∧ s.splitHighO = some (split v).high) ∧
  (∀ (s : State) (low high : Half), s.ligateLowI = some low → s.ligateHighI = some high →
    s.ligateValueO = some (ligate low high)) ∧
  (∀ s : State, (s.splitLowO.isSome = s.splitValueI.isSome) ∧
    (s.splitHighO.isSome = s.splitValueI.isSome) ∧
    (s.ligateValueO.isSome = (s.ligateLowI.isSome && s.ligateHighI.isSome)))

/-- When the host stops driving a datapath its outputs are no longer defined, and the other datapath keeps all its
values (10_state.md section 4, "only while"; the move is the model's choice, log entry 2, and so are the fields `pending`
and `trace`, log entries 1 and 3; the ligate output as a whole port is log entry 8). -/
def Obligations.ReleasedDatapathHasNoOutputs : Prop :=
  ∀ (s : State) (rest : List HostMove),
    (s.pending = .release .split :: rest → ∃ t, step s = .next t ∧
      t.splitValueI = none ∧ t.splitLowO = none ∧ t.splitHighO = none ∧
      t.ligateLowI = s.ligateLowI ∧ t.ligateHighI = s.ligateHighI ∧
      t.ligateValueO = s.ligateValueO ∧ t.pending = rest ∧ t.trace = s.trace) ∧
    (s.pending = .release .ligate :: rest → ∃ t, step s = .next t ∧
      t.ligateLowI = none ∧ t.ligateHighI = none ∧ t.ligateValueO = none ∧
      t.splitValueI = s.splitValueI ∧ t.splitLowO = s.splitLowO ∧
      t.splitHighO = s.splitHighO ∧ t.pending = rest ∧ t.trace = s.trace)

/-! ## Invocations together -/

/-- The result of an invocation depends on its request alone: from any two states it adds the same exchange and
leaves the same values on the ports of its datapath; and two runs of the same moves, from any two histories, add the
same exchanges (10_state.md section 1; 20_memory.md section 6). The exchanges recorded in `trace` and the moves in
`pending` are the model's choice, log entries 3 and 1. -/
def Obligations.ResultsDependOnTheRequestAlone : Prop :=
  (∀ (i : Instr) (s s' : State), ∃ (t t' : State) (e : Exchange),
    exec i s = .next t ∧ exec i s' = .next t' ∧
    t.trace = s.trace ++ [e] ∧ t'.trace = s'.trace ++ [e] ∧
    match i with
    | .split _ => t.splitValueI = t'.splitValueI ∧ t.splitLowO = t'.splitLowO ∧
        t.splitHighO = t'.splitHighO
    | .ligate _ _ => t.ligateLowI = t'.ligateLowI ∧ t.ligateHighI = t'.ligateHighI ∧
        t.ligateValueO = t'.ligateValueO) ∧
  (∀ s s' : State, s.pending = s'.pending → ∃ (t t' : State) (es : List Exchange),
    Host.Core.run core s.pending.length s = .next t ∧
    Host.Core.run core s'.pending.length s' = .next t' ∧
    t.trace = s.trace ++ es ∧ t'.trace = s'.trace ++ es)

/-- Repeating an invocation changes no port and gives the same response again (20_memory.md section 4). What the ports
keep and the fields `pending` and `trace` are the model's choice, log entries 2, 1 and 3. -/
def Obligations.InvocationsAreRepeatable : Prop :=
  ∀ (i : Instr) (s : State), ∃ (t u : State) (e : Exchange),
    exec i s = .next t ∧ exec i t = .next u ∧ u.SamePorts t ∧ u.block = t.block ∧
    u.pending = t.pending ∧ t.trace = s.trace ++ [e] ∧ u.trace = t.trace ++ [e]

/-- A SPLIT and a LIGATE in the same instant each give the result they give alone; made one after the other, in
either order, they leave the same ports and the same exchanges (20_memory.md section 6; 60_exceptions.md section 3).
That they run one after the other within a step is log entry 7 (DEDUCED); the queue, what the ports keep, and the order
in which the two exchanges are listed are the model's choice, log entries 1, 2 and 3. -/
def Obligations.BothDatapathsAtOnce : Prop :=
  ∀ (s : State) (v : Pattern) (l h : Half) (rest : List HostMove),
    s.pending = .invokeBoth v l h :: rest →
    ∃ (t : State) (low high : Half) (value : Pattern), step s = .next t ∧
      SplitGives v low high ∧ LigateGives l h value ∧
      t.splitLowO = some low ∧ t.splitHighO = some high ∧ t.ligateValueO = some value ∧
      t.pending = rest ∧
      (∃ u, andThen (exec (.split v) { s with pending := rest }) (exec (.ligate l h)) = .next u ∧
        u.SamePorts t ∧ u.trace.Perm t.trace) ∧
      (∃ u, andThen (exec (.ligate l h) { s with pending := rest }) (exec (.split v)) = .next u ∧
        u.SamePorts t ∧ u.trace.Perm t.trace)

/-- A round trip made by the host out of two steps: it reads the outputs of a SPLIT and presents them to LIGATE
(70_reset_and_hazards.md section 5, chaining; the fields `pending` and `trace` are the model's choice, log entries 1
and 3). -/
def Obligations.HostChainsSplitIntoLigate : Prop :=
  ∀ (s : State) (v : Pattern), s.pending = [.invoke (encode (.split v))] →
    ∃ (t u : State) (low high : Half), step s = .next t ∧
      t.splitLowO = some low ∧ t.splitHighO = some high ∧
      step (t.place (.invoke (encode (.ligate low high)))) = .next u ∧
      u.ligateValueO = some v ∧ u.pending = [] ∧ u.trace.length = s.trace.length + 2

/-- A step of one instance of the block is the step it makes alone, and every other instance stands as it was
(20_memory.md section 6; 60_exceptions.md section 6; the list of instances is the model's choice, log entry 10). -/
def Obligations.InstancesDoNotInterfere : Prop :=
  ∀ (k : Nat) (blocks : List State) (s : State), blocks[k]? = some s →
    ∃ (t : State) (after : List State), step s = .next t ∧ stepInstance k blocks = .next after ∧
      after[k]? = some t ∧ (∀ j, j ≠ k → after[j]? = blocks[j]?) ∧ after.length = blocks.length

/-- A run makes all of the host's moves, one a step, and answers every request, in order, with its own operand field
(70_reset_and_hazards.md section 5; 30_encoding.md section 2, the identity the spec derives; the fields `pending` and
`trace` are the model's choice, log entries 1 and 3). -/
def Obligations.RunAnswersEveryRequest : Prop :=
  ∀ s : State, ∃ t : State, Host.Core.run core s.pending.length s = .next t ∧ t.pending = [] ∧
    t.trace = s.trace ++ (s.pending.flatMap HostMove.requests).map identityExchange

/-- Reordering the host's moves gives every invocation the same result: the exchanges of the two runs are the same
up to order (20_memory.md section 6; the fields `pending` and `trace` are the model's choice, log entries 1 and 3). -/
def Obligations.ReorderedMovesGiveTheSameExchanges : Prop :=
  ∀ (s : State) (moves moves' : List HostMove), moves.Perm moves' →
    ∃ t t' : State,
      Host.Core.run core moves.length { s with pending := moves } = .next t ∧
      Host.Core.run core moves'.length { s with pending := moves' } = .next t' ∧
      t.trace.Perm t'.trace ∧ t.block = t'.block

/-! ## Reset and invariants -/

/-- Right after reset nothing is driven, no output is defined, no move is pending and no exchange is recorded; a step
with no move changes nothing (10_state.md section 4; that no port is driven is log entry 2, the ligate output as a whole
port log entry 8, and the values of `pending` and `trace` are the model's choice, log entries 1 and 3). -/
def Obligations.ResetDrivesNothing : Prop :=
  State.reset.splitValueI = none ∧ State.reset.ligateLowI = none ∧ State.reset.ligateHighI = none ∧
  State.reset.splitLowO = none ∧ State.reset.splitHighO = none ∧ State.reset.ligateValueO = none ∧
  State.reset.pending = [] ∧ State.reset.trace = [] ∧ step State.reset = .next State.reset

/-- Every step keeps the recorded exchanges sound: every response carries exactly its request's operand field
(30_encoding.md section 2, the identity of the response word, which the spec derives; the field `trace` is the model's
choice, log entry 3). -/
def Obligations.StepsKeepEveryExchangeSound : Prop :=
  ∀ s t : State, s.TraceSound → step s = .next t → t.TraceSound

/-- The state right after reset has no unsound exchange: the record is empty, the model's choice, log entry 3. -/
def Obligations.ResetTraceIsSound : Prop :=
  State.reset.TraceSound

/-- Every step keeps the two ligate inputs driven together: an invocation presents a value on every input port of its
datapath (10_state.md section 2; what the ports keep between invocations is the model's choice, log entry 2). -/
def Obligations.StepsKeepLigateInputsTogether : Prop :=
  ∀ s t : State, s.LigateDrivenTogether → step s = .next t → t.LigateDrivenTogether

/-- Right after reset the ligate inputs are driven together, that is, not at all (10_state.md section 4, log entry 2). -/
def Obligations.ResetLigateInputsTogether : Prop :=
  State.reset.LigateDrivenTogether
end

