-- ==== Sys2Proof/Laws/Assembler.lean ====
section
/-! SUPPORT. What reading the written digits gives, said once (00_scope.md R8). -/
namespace Sys2Proof.Machine

/-- A written place reads back as its value. -/
theorem digitValue_hexDigit : ∀ d < 16, digitValue (hexDigit d) = some d := by decide

/-- Reading `n` written digits of `x` onto `acc` gives `acc` moved up by `n` places and the low `n` places of `x`. -/
theorem readDigits_hexDigits (n acc x : Nat) (rest : List Char) :
    readDigits n acc (hexDigits n x ++ rest) = some (acc * 16 ^ n + x % 16 ^ n, rest) := by
  induction n generalizing acc with
  | zero => simp [readDigits, hexDigits, Nat.mod_one]
  | succ n ih =>
    rw [hexDigits, List.cons_append, readDigits, digitValue_hexDigit _ (Nat.mod_lt _ (by decide))]
    simp only [ih]
    congr 2
    rw [Nat.pow_succ, Nat.mod_mul]
    ring

end Sys2Proof.Machine
end

