-- ==== Sys2Proof/Laws/State.lean ====
section
/-!
SUPPORT. One lemma per field per named update of the state, each true by rfl, so that no later proof unfolds a
record update.
-/
namespace Sys2Proof.Machine

variable (s : State)

@[simp] theorem State.driveSplit_block (value : Pattern) :
    (s.driveSplit value).block = s.block := rfl
@[simp] theorem State.driveSplit_splitValueI (value : Pattern) :
    (s.driveSplit value).splitValueI = some value := rfl
@[simp] theorem State.driveSplit_ligateLowI (value : Pattern) :
    (s.driveSplit value).ligateLowI = s.ligateLowI := rfl
@[simp] theorem State.driveSplit_ligateHighI (value : Pattern) :
    (s.driveSplit value).ligateHighI = s.ligateHighI := rfl
@[simp] theorem State.driveSplit_pending (value : Pattern) :
    (s.driveSplit value).pending = s.pending := rfl
@[simp] theorem State.driveSplit_trace (value : Pattern) :
    (s.driveSplit value).trace = s.trace := rfl

@[simp] theorem State.driveLigate_block (low high : Half) :
    (s.driveLigate low high).block = s.block := rfl
@[simp] theorem State.driveLigate_splitValueI (low high : Half) :
    (s.driveLigate low high).splitValueI = s.splitValueI := rfl
@[simp] theorem State.driveLigate_ligateLowI (low high : Half) :
    (s.driveLigate low high).ligateLowI = some low := rfl
@[simp] theorem State.driveLigate_ligateHighI (low high : Half) :
    (s.driveLigate low high).ligateHighI = some high := rfl
@[simp] theorem State.driveLigate_pending (low high : Half) :
    (s.driveLigate low high).pending = s.pending := rfl
@[simp] theorem State.driveLigate_trace (low high : Half) :
    (s.driveLigate low high).trace = s.trace := rfl

@[simp] theorem State.record_block (request : ReqWord) (response : RspWord) :
    (s.record request response).block = s.block := rfl
@[simp] theorem State.record_splitValueI (request : ReqWord) (response : RspWord) :
    (s.record request response).splitValueI = s.splitValueI := rfl
@[simp] theorem State.record_ligateLowI (request : ReqWord) (response : RspWord) :
    (s.record request response).ligateLowI = s.ligateLowI := rfl
@[simp] theorem State.record_ligateHighI (request : ReqWord) (response : RspWord) :
    (s.record request response).ligateHighI = s.ligateHighI := rfl
@[simp] theorem State.record_pending (request : ReqWord) (response : RspWord) :
    (s.record request response).pending = s.pending := rfl
@[simp] theorem State.record_trace (request : ReqWord) (response : RspWord) :
    (s.record request response).trace = s.trace ++ [⟨request, response⟩] := rfl

@[simp] theorem State.place_block (m : HostMove) :
    (s.place m).block = s.block := rfl
@[simp] theorem State.place_splitValueI (m : HostMove) :
    (s.place m).splitValueI = s.splitValueI := rfl
@[simp] theorem State.place_ligateLowI (m : HostMove) :
    (s.place m).ligateLowI = s.ligateLowI := rfl
@[simp] theorem State.place_ligateHighI (m : HostMove) :
    (s.place m).ligateHighI = s.ligateHighI := rfl
@[simp] theorem State.place_pending (m : HostMove) :
    (s.place m).pending = s.pending ++ [m] := rfl
@[simp] theorem State.place_trace (m : HostMove) :
    (s.place m).trace = s.trace := rfl

@[simp] theorem State.release_split_block : (s.release .split).block = s.block := rfl
@[simp] theorem State.release_split_splitValueI : (s.release .split).splitValueI = none := rfl
@[simp] theorem State.release_split_ligateLowI : (s.release .split).ligateLowI = s.ligateLowI := rfl
@[simp] theorem State.release_split_ligateHighI : (s.release .split).ligateHighI = s.ligateHighI := rfl
@[simp] theorem State.release_split_pending : (s.release .split).pending = s.pending := rfl
@[simp] theorem State.release_split_trace : (s.release .split).trace = s.trace := rfl

@[simp] theorem State.release_ligate_block : (s.release .ligate).block = s.block := rfl
@[simp] theorem State.release_ligate_splitValueI : (s.release .ligate).splitValueI = s.splitValueI := rfl
@[simp] theorem State.release_ligate_ligateLowI : (s.release .ligate).ligateLowI = none := rfl
@[simp] theorem State.release_ligate_ligateHighI : (s.release .ligate).ligateHighI = none := rfl
@[simp] theorem State.release_ligate_pending : (s.release .ligate).pending = s.pending := rfl
@[simp] theorem State.release_ligate_trace : (s.release .ligate).trace = s.trace := rfl

end Sys2Proof.Machine
end

