-- ==== Sys2Proof/Laws/Ops.lean ====
section
/-!
SUPPORT. For each shared operation, what it can do, said once: the proofs cite these and do not unfold the
operations.
-/
namespace Sys2Proof.Machine

/-- Bits of the low half of a split pattern (R48). -/
theorem split_low_getLsbD (v : Pattern) (i : Nat) (hi : i < 32) :
    (split v).low.getLsbD i = v.getLsbD i := by
  simp [split, hi]

/-- Bits of the high half of a split pattern (R48). -/
theorem split_high_getLsbD (v : Pattern) (i : Nat) (hi : i < 32) :
    (split v).high.getLsbD i = v.getLsbD (32 + i) := by
  simp [split, hi]

/-- Bits of a ligated value: low's below 32, high's from 32 on (R54). -/
theorem ligate_getLsbD (low high : Half) (i : Nat) :
    (ligate low high).getLsbD i = if i < 32 then low.getLsbD i else high.getLsbD (i - 32) := by
  rw [ligate, BitVec.getLsbD_append]

/-- The bits of a request word: the operand field below 64, the operation at 64 (R40). -/
theorem encode_split_getLsbD (v : Pattern) (i : Nat) :
    (encode (.split v)).getLsbD i = if i < 64 then v.getLsbD i else false := by
  rw [encode, BitVec.getLsbD_append]
  simp

theorem encode_ligate_getLsbD (low high : Half) (i : Nat) :
    (encode (.ligate low high)).getLsbD i =
      if i < 64 then (ligate low high).getLsbD i else decide (i = 64) := by
  rw [encode, BitVec.getLsbD_append, ligate]
  split
  · rfl
  · rename_i h
    simp only [BitVec.getLsbD_one]
    rw [Bool.eq_iff_iff]
    simp only [Bool.and_eq_true, decide_eq_true_eq]
    omega

/-- The decoder, by the operation bit (R43). -/
theorem decode_of_op_false (w : ReqWord) (h : w.getLsbD 64 = false) :
    decode w = .split (ReqWord.value w) := by
  unfold decode ReqWord.op
  rw [h]
  rfl

theorem decode_of_op_true (w : ReqWord) (h : w.getLsbD 64 = true) :
    decode w = .ligate (ReqWord.low w) (ReqWord.high w) := by
  unfold decode ReqWord.op
  rw [h]
  rfl

/-- What the meaning of SPLIT leaves. -/
theorem exec_split (v : Pattern) (s : State) :
    exec (.split v) s =
      .next ((s.driveSplit v).record (encode (.split v)) (splitResponse (split v))) := rfl

/-- What the meaning of LIGATE leaves. -/
theorem exec_ligate (low high : Half) (s : State) :
    exec (.ligate low high) s =
      .next ((s.driveLigate low high).record (encode (.ligate low high))
        (ligateResponse (ligate low high))) := rfl

/-- The split outputs follow the split input. -/
theorem State.splitLowO_of_driven {s : State} {v : Pattern} (h : s.splitValueI = some v) :
    s.splitLowO = some (split v).low := by
  simp [State.splitLowO, State.splitOut, h]

theorem State.splitHighO_of_driven {s : State} {v : Pattern} (h : s.splitValueI = some v) :
    s.splitHighO = some (split v).high := by
  simp [State.splitHighO, State.splitOut, h]

/-- The ligate output follows the two ligate inputs. -/
theorem State.ligateValueO_of_driven {s : State} {low high : Half}
    (hl : s.ligateLowI = some low) (hh : s.ligateHighI = some high) :
    s.ligateValueO = some (ligate low high) := by
  simp [State.ligateValueO, hl, hh]

/-- The next move is the head of the host's list, and taking it changes nothing else. -/
theorem State.nextMove_cons {s : State} {m : HostMove} {rest : List HostMove}
    (h : s.pending = m :: rest) : s.nextMove = some (m, { s with pending := rest }) := by
  simp [State.nextMove, h]

theorem State.nextMove_nil {s : State} (h : s.pending = []) : s.nextMove = none := by
  simp [State.nextMove, h]

/-- What a step can do, said once: the run has ended and nothing changes, or the head of the host's list is taken and
that move is made. -/
theorem step_cases (s : State) :
    (s.pending = [] ∧ step s = .next s) ∨
      (∃ m rest, s.pending = m :: rest ∧ step s = runMove m { s with pending := rest }) := by
  cases h : s.pending with
  | nil => exact .inl ⟨rfl, by rw [step, State.nextMove_nil h]⟩
  | cons m rest => exact .inr ⟨m, rest, rfl, by rw [step, State.nextMove_cons h]⟩

/-- Running on from a next state. -/
theorem andThen_next (t : State) (f : State → Host.Outcome State Fault Refusal) :
    andThen (.next t) f = f t := rfl

end Sys2Proof.Machine
end

