-- ==== Sys2Proof/Laws/PerInstr.lean ====
section
/-!
SUPPORT. Per-instruction families about instructions as syntax.
SpellsOwnRow: the request word of an instruction spells the opcode row of its own mnemonic and no other
(30_encoding.md R43).
-/
namespace Sys2Proof.Laws.SpellsOwnRow

/-- The rows the encoded word spells are exactly those of the instruction's mnemonic. -/
def Statement (i : Instr) : Prop :=
  ∀ r ∈ opcodeTable, (r.spells (encode i) = true ↔ r.mnemonic = i.mnemonic)

/-- A word under the mask of R43 is its bit 64 alone. -/
theorem masked_eq (w : ReqWord) :
    w &&& 0x10000000000000000#65 = if w.getLsbD 64 then 0x10000000000000000#65 else 0#65 := by
  have h : (0x10000000000000000#65 : ReqWord) = BitVec.twoPow 65 64 := by decide
  rw [h, BitVec.and_twoPow]

theorem split (value : Pattern) : Statement (.split value) := by
  intro r hr
  have h : (encode (.split value)).getLsbD 64 = false := by
    rw [encode, BitVec.getLsbD_append]
    simp
  simp only [opcodeTable, List.mem_cons, List.not_mem_nil, or_false] at hr
  rcases hr with rfl | rfl <;>
    simp only [TableRow.spells, masked_eq, h, Instr.mnemonic] <;> decide

theorem ligate (low high : Half) : Statement (.ligate low high) := by
  intro r hr
  have h : (encode (.ligate low high)).getLsbD 64 = true := by
    rw [encode, BitVec.getLsbD_append]
    simp
  simp only [opcodeTable, List.mem_cons, List.not_mem_nil, or_false] at hr
  rcases hr with rfl | rfl <;>
    simp only [TableRow.spells, masked_eq, h, Instr.mnemonic] <;> decide

end Sys2Proof.Laws.SpellsOwnRow
end

