-- ==== Sys2Proof/Machine/Flags.lean ====
section
/-!
DEFINITION. Flags, condition codes and predicates: there are none, and neither operation sets, clears or reads
one (10_state.md R13; 42_contract_and_numerics.md R66, R69). The file stands so that the absence has a place; it
declares nothing.
-/
end

