-- ==== Sys2Proof/Tests/Faulty.lean ====
section
/-!
SUPPORT. The faulty builds the source warns of, each kept as a refuted variant (95_test_vectors.md section 2.3). Every
wrong and every right result below is the table's.
-/
namespace Sys2Proof.Tests.Faulty

open Sys2Proof.Machine

/-- SPLIT through a float-to-integer cast, truncating (R51). -/
def splitNumeric (p : Pattern) : SplitPair :=
  let e := (exponent p).toNat
  let magnitude := if e < 1023 then 0 else (2 ^ 52 + (fraction p).toNat) * 2 ^ (e - 1023) / 2 ^ 52
  split (if signBit p then -(BitVec.ofNat 64 magnitude) else BitVec.ofNat 64 magnitude)

/-- SPLIT that replaces every NaN by one quiet NaN (R70). -/
def splitCanonical (p : Pattern) : SplitPair :=
  split (if isNaN p then 0x7FF8000000000000#64 else p)

/-- The quiet form of a signalling NaN (R70). -/
def quieted (p : Pattern) : Pattern :=
  if isNaN p then p ||| 0x0008000000000000#64 else p

/-- SPLIT that flushes subnormals to a zero of their sign (R72). -/
def splitFlushing (p : Pattern) : SplitPair :=
  split (if classOf p = .subnormal then p &&& 0x8000000000000000#64 else p)

/-- SPLIT with the halves exchanged (R63). -/
def splitExchanged (p : Pattern) : SplitPair := ⟨(split p).high, (split p).low⟩

/-- LIGATE that joins its operands the other way round, which hides the exchange from the round trip (R63). -/
def ligateExchanged (low high : Half) : Pattern := ligate high low

/-- SPLIT with low taken as 31 bits. -/
def splitOffByOne (p : Pattern) : SplitPair :=
  ⟨(p.extractLsb' 0 31).setWidth 32, p.extractLsb' 31 32⟩

/-- SPLIT with high taken without the shift. -/
def splitUnshifted (p : Pattern) : SplitPair := ⟨p.extractLsb' 0 32, p.extractLsb' 0 32⟩

/-- LIGATE that sign-extends low (R56). -/
def ligateExtending (low high : Half) : Pattern :=
  low.signExtend 64 ||| (high.setWidth 64 <<< 32)

/-- LIGATE that converts the integer it is given to a double, truncating (R57). -/
def ligateNumeric (low high : Half) : Pattern :=
  let n := (ligate low high).toNat
  let k := n.log2
  if n = 0 then 0#64
  else BitVec.ofNat 64 ((1023 + k) * 2 ^ 52 + n * 2 ^ 52 / 2 ^ k % 2 ^ 52)

theorem test_split_faulty_builds_refuted :
    (split 0x3FF0000000000000#64 = ⟨0x00000000#32, 0x3FF00000#32⟩ ∧
      splitNumeric 0x3FF0000000000000#64 = ⟨0x00000001#32, 0x00000000#32⟩) ∧
    (split 0x8000000000000000#64 = ⟨0x00000000#32, 0x80000000#32⟩ ∧
      splitNumeric 0x8000000000000000#64 = ⟨0x00000000#32, 0x00000000#32⟩) ∧
    (split 0x7FF8000000000001#64 = ⟨0x00000001#32, 0x7FF80000#32⟩ ∧
      splitCanonical 0x7FF8000000000001#64 = ⟨0x00000000#32, 0x7FF80000#32⟩) ∧
    (split 0xFFF8000000000000#64 = ⟨0x00000000#32, 0xFFF80000#32⟩ ∧
      splitCanonical 0xFFF8000000000000#64 = ⟨0x00000000#32, 0x7FF80000#32⟩) ∧
    (split 0x7FF0000000000001#64 = ⟨0x00000001#32, 0x7FF00000#32⟩ ∧
      split (quieted 0x7FF0000000000001#64) = ⟨0x00000001#32, 0x7FF80000#32⟩) ∧
    (split 0x0000000000000001#64 = ⟨0x00000001#32, 0x00000000#32⟩ ∧
      splitFlushing 0x0000000000000001#64 = ⟨0x00000000#32, 0x00000000#32⟩) ∧
    splitExchanged 0x3FF0000000000000#64 = ⟨0x3FF00000#32, 0x00000000#32⟩ ∧
    (split 0x0000000080000000#64 = ⟨0x80000000#32, 0x00000000#32⟩ ∧
      splitOffByOne 0x0000000080000000#64 = ⟨0x00000000#32, 0x00000001#32⟩) ∧
    (split 0x0123456789ABCDEF#64 = ⟨0x89ABCDEF#32, 0x01234567#32⟩ ∧
      splitUnshifted 0x0123456789ABCDEF#64 = ⟨0x89ABCDEF#32, 0x89ABCDEF#32⟩) := by decide

theorem test_ligate_faulty_builds_refuted :
    (ligate 0x9999999A#32 0x3FB99999#32 = 0x3FB999999999999A#64 ∧
      ligateExtending 0x9999999A#32 0x3FB99999#32 = 0xFFFFFFFF9999999A#64) ∧
    (ligate 0x80000000#32 0x00000000#32 = 0x0000000080000000#64 ∧
      ligateExtending 0x80000000#32 0x00000000#32 = 0xFFFFFFFF80000000#64) ∧
    (ligate 0x00000001#32 0x00000000#32 = 0x0000000000000001#64 ∧
      ligateNumeric 0x00000001#32 0x00000000#32 = 0x3FF0000000000000#64) ∧
    (ligate 0x00000001#32 0x7FF00000#32 = 0x7FF0000000000001#64 ∧
      quieted (ligate 0x00000001#32 0x7FF00000#32) = 0x7FF8000000000001#64) ∧
    (ligateExchanged (splitExchanged 0x3FF0000000000000#64).low
      (splitExchanged 0x3FF0000000000000#64).high = 0x3FF0000000000000#64) := by decide

end Sys2Proof.Tests.Faulty
end

