-- ==== Sys2Proof/Tests/Slice0.lean ====
section
/-!
SUPPORT. Tests of the model's own: words written out from the encoding, well-formedness at the boundary, one step on
small states, and for every statement with hypotheses a witness that meets them. Expected results are those of
95_test_vectors.md, cited by section and row.
-/
namespace Sys2Proof.Tests

open Sys2Proof.Machine

/-! ## Decoding (95_test_vectors.md section 2.4) and writing -/

/-- SPLIT, `0` then 64 bits `v`, written out bit by bit: 1.0 has exponent bits 61..52 set (R43, S1). -/
theorem test_decode_split_bit_by_bit :
    decode (0b0#1 ++ (0b0011111111110000000000000000000000000000000000000000000000000000#64)) =
      .split 0x3FF0000000000000#64 := by decide

/-- LIGATE, `1` then 32 bits `h` then 32 bits `l`, written out bit by bit (R43; rows 6 and 7 of section 2.4). -/
theorem test_decode_ligate_bit_by_bit :
    decode (0b1#1 ++ (0b00000001001000110100010101100111#32 ++ 0b10001001101010111100110111101111#32)) =
      .ligate 0x89ABCDEF#32 0x01234567#32 := by decide

theorem test_decode_all_zeros : decode 0x00000000000000000#65 = .split 0#64 := by decide
theorem test_decode_all_ones :
    decode 0x1FFFFFFFFFFFFFFFF#65 = .ligate 0xFFFFFFFF#32 0xFFFFFFFF#32 := by decide

/-- V9: the two request words of one row. -/
theorem test_encode_v9 :
    encode (.split 0xC05EDD2F1A9FBE77#64) = 0x0C05EDD2F1A9FBE77#65 ∧
    encode (.ligate 0x1A9FBE77#32 0xC05EDD2F#32) = 0x1C05EDD2F1A9FBE77#65 := by decide

/-- The table's word as the host numbers it: bit 64 alone set is LIGATE of zeros; with bit 65 set it is no word. -/
theorem test_decode_table_words :
    decodeTableWord 72 0x10000000000000000 = some (.ligate 0#32 0#32) ∧
    decodeTableWord 72 0x00000000000000000 = some (.split 0#64) ∧
    decodeTableWord 72 0x20000000000000000 = none := by decide

/-- P2 step 1, as R46 writes it: low first. -/
theorem test_write_ligate_line :
    writeInstr .assembler (.ligate 0xCAFEBABE#32 0xDEADBEEF#32) =
      ['L', 'I', 'G', 'A', 'T', 'E', ' ', '0', 'x', 'C', 'A', 'F', 'E', 'B', 'A', 'B', 'E', ',', ' ',
        '0', 'x', 'D', 'E', 'A', 'D', 'B', 'E', 'E', 'F'] := by decide

/-- P2 step 1, its request word with 17 digits: high first (R8, R96). -/
theorem test_write_ligate_request :
    writeRequest (encode (.ligate 0xCAFEBABE#32 0xDEADBEEF#32)) =
      ['0', 'x', '1', 'D', 'E', 'A', 'D', 'B', 'E', 'E', 'F', 'C', 'A', 'F', 'E', 'B', 'A', 'B', 'E'] := by decide

/-- A literal of the wrong length is no line of the notation (R8, R46). -/
theorem test_read_refuses_short_literal :
    readInstr ['S', 'P', 'L', 'I', 'T', ' ', '0', 'x', '3', 'F'] = none := by decide

/-! ## Well-formedness: an ill-formed term for each check (R44, R20) -/

/-- 64 defined wires are no request word: the width check refuses them. -/
theorem test_wf_refuses_64_wires :
    requestWidthOk (List.replicate 64 (some false)) = false ∧
    decodeSignals (List.replicate 64 (some false)) = .error (.wrongWidth 64) := by decide

/-- 66 defined wires are no request word either. -/
theorem test_wf_refuses_66_wires :
    decodeSignals (List.replicate 66 (some true)) = .error (.wrongWidth 66) := by decide

/-- 65 wires, the topmost undriven: the definedness check refuses them and names the wire. -/
theorem test_wf_refuses_undriven_wire :
    fullyDefined (List.replicate 64 (some true) ++ [none]) = false ∧
    decodeSignals (List.replicate 64 (some true) ++ [none]) = .error (.undefinedBit 64) := by decide

/-- 65 defined wires are a request word, and every operation is well-formed. -/
theorem test_wf_accepts_65_defined_wires :
    isRequestVector (List.replicate 65 (some true)) = true ∧ (Instr.ligate 0#32 0#32).wf = true := by decide

/-! ## One step -/

/-- A small state: after reset, with these moves still to make. -/
def withMoves (ms : List HostMove) : State := { State.reset with pending := ms }

/-- The state an outcome leaves; the reset state if it leaves none. -/
def after : Host.Outcome State Fault Refusal → State
  | .next t => t
  | .fault _ => State.reset
  | .refused _ => State.reset

/-- S1: SPLIT of 1.0 through one step. -/
theorem test_split_one :
    (after (step (withMoves [.invoke 0x03FF0000000000000#65]))).splitLowO = some 0x00000000#32 ∧
    (after (step (withMoves [.invoke 0x03FF0000000000000#65]))).splitHighO = some 0x3FF00000#32 := by decide

/-- V30: bit 31 set does not leak into high; P5's response word. -/
theorem test_split_boundary_bits :
    (after (exec (.split 0x3FF0000080000000#64) State.reset)).splitHighO = some 0x3FF00000#32 ∧
    (after (exec (.split 0x400921FB54442D18#64) State.reset)).trace =
      [⟨0x0400921FB54442D18#65, 0x400921FB54442D18#64⟩] := by decide

/-- S4: low with its top bit set does not disturb the upper half. -/
theorem test_ligate_top_bit_of_low :
    (after (exec (.ligate 0x80000000#32 0x3FF00000#32) State.reset)).ligateValueO =
      some 0x3FF0000080000000#64 := by decide

/-- P3 step 2: exchanged halves, low in the low half, through one step. -/
theorem test_ligate_order_of_operands :
    (after (step (withMoves [.invoke 0x1000000003FF00000#65]))).ligateValueO =
      some 0x000000003FF00000#64 := by decide

/-- P4: both datapaths in the same instant. -/
theorem test_both_at_once :
    (after (step (withMoves [.invokeBoth 0x8000000000000000#64 0xFFFFFFFF#32 0x7FEFFFFF#32]))).splitHighO =
      some 0x80000000#32 ∧
    (after (step (withMoves [.invokeBoth 0x8000000000000000#64 0xFFFFFFFF#32 0x7FEFFFFF#32]))).ligateValueO =
      some 0x7FEFFFFFFFFFFFFF#64 := by decide

/-- S7: the mask constant. -/
theorem test_low_mask : lowMask = 0x00000000FFFFFFFF#64 := by decide

/-! ## Witnesses: the hypotheses of the statements can be met -/

theorem witness_operandsAreFields_split :
    (0x0FFFFFFFFFFFFFFFF#65 : ReqWord).getLsbD 64 = false ∧ (63 : Nat) < 64 := by decide
theorem witness_operandsAreFields_ligate :
    (0x10000000000000000#65 : ReqWord).getLsbD 64 = true ∧ (31 : Nat) < 32 := by decide
theorem witness_everyWordSpells :
    (0x1FFFFFFFFFFFFFFFF#65 : ReqWord).getLsbD 64 = (0x10000000000000000#65 : ReqWord).getLsbD 64 := by decide
theorem witness_benchVectors_width : (List.replicate 64 (some true) : List Signal).length ≠ 65 := by decide
theorem witness_benchVectors_undefined :
    (List.replicate 64 (some true) ++ [none] : List Signal).length = 65 ∧
    fullyDefined (List.replicate 64 (some true) ++ [none]) = false := by decide
theorem witness_tableWords_largest : (65 : Nat) ≤ 65 ∧ 2 ^ 65 - 1 < 2 ^ 65 := by decide
theorem witness_tableWords_tooLarge : (65 : Nat) ≤ 66 ∧ 2 ^ 65 ≤ 2 ^ 65 ∧ 2 ^ 65 < 2 ^ 66 := by decide
theorem witness_tableWords_short : (64 : Nat) < 65 := by decide
theorem witness_tableWords_bitsAbove : 2 ^ 8 ≤ 0x100 := by decide
theorem witness_neitherConverts_split :
    classOf 0x7FF0000000000001#64 = .signallingNaN ∧ classOf 0x7FF8000000000001#64 = .quietNaN ∧
    classOf 0x000FFFFFFFFFFFFF#64 = .subnormal := by decide
theorem witness_neitherConverts_ligate :
    classOf (0x7FF00000#32 ++ 0x00000001#32) = .signallingNaN ∧
    classOf (0xFFFFFFFF#32 ++ 0xFFFFFFFF#32) = .quietNaN ∧
    classOf (0x00000000#32 ++ 0x00000001#32) = .subnormal := by decide
theorem witness_stepRunsTheDecodedRequest :
    (withMoves [.invoke 0x1FFFFFFFFFFFFFFFF#65]).pending = .invoke 0x1FFFFFFFFFFFFFFFF#65 :: [] := by decide
theorem witness_stepMakes_none : (withMoves []).pending = [] := by decide
theorem witness_stepMakes_release :
    (withMoves [.release .ligate]).pending = .release .ligate :: [] := by decide
theorem witness_stepMakes_both :
    (withMoves [.invokeBoth 1#64 2#32 3#32]).pending = .invokeBoth 1#64 2#32 3#32 :: [] := by decide
theorem witness_placedWordRunsNext : (65 : Nat) ≤ 72 ∧ 0x10000000000000000 < 2 ^ 65 := by decide
theorem witness_splitFrame :
    ∃ t, exec (.split 0xFFFFFFFFFFFFFFFF#64) State.reset = .next t := ⟨_, rfl⟩
theorem witness_splitProcedure : (32 : Nat) ≤ 32 := by decide
theorem witness_splitIsTotal_unique : SplitGives 0#64 (⟨0#32, 0#32⟩ : SplitPair).low (⟨0#32, 0#32⟩ : SplitPair).high :=
  fun _ => ⟨_, rfl, rfl, rfl⟩
theorem witness_ligateFrame :
    ∃ t, exec (.ligate 0xFFFFFFFF#32 0x80000000#32) State.reset = .next t := ⟨_, rfl⟩
theorem witness_ligateIsTotal_unique : LigateGives 0#32 0#32 0#64 :=
  fun _ => ⟨_, rfl, rfl⟩
theorem witness_ligateDoesNotSignExtend : (0x80000000#32 : Half).getLsbD 31 = true := by decide
theorem witness_roundTripAlone_bijection :
    (∀ v : Pattern, (fun w => ~~~w) ((fun w => ~~~w) v) = v) := fun v => by simp
theorem witness_exchangedHalves : (0x00000000#32 : Half) ≠ 0x3FF00000#32 := by decide
theorem witness_signedReading : signed32 0x80000000#32 = signed32 (0x7FFFFFFF#32 + 1#32) := by decide
theorem witness_shiftAndMask :
    (63 : Nat) < 64 ∧
    ∀ k < 64, ((0xFFFFFFFF00000000#64 : Pattern).getLsbD k && (0x00000000FFFFFFFF#64 : Pattern).getLsbD k) = false := by
  decide
theorem witness_eachInputBit : (63 : Nat) < 64 ∧ (31 : Nat) < 32 ∧ (0 : Nat) < 32 := by decide
theorem witness_mixedInputs_split :
    ∀ k < 64, (0x00000000FFFFFFFF#64 : Pattern).getLsbD k = (0x0000000000000000#64 : Pattern).getLsbD k ∨
      (0x00000000FFFFFFFF#64 : Pattern).getLsbD k = (0xFFFFFFFFFFFFFFFF#64 : Pattern).getLsbD k := by decide
theorem witness_mixedInputs_ligate :
    ∀ k < 32, ((0xFFFFFFFF#32 : Half).getLsbD k = (0#32 : Half).getLsbD k ∨
        (0xFFFFFFFF#32 : Half).getLsbD k = (0xFFFFFFFF#32 : Half).getLsbD k) ∧
      ((0#32 : Half).getLsbD k = (0#32 : Half).getLsbD k ∨
        (0#32 : Half).getLsbD k = (0xFFFFFFFF#32 : Half).getLsbD k) := by decide
theorem witness_outputsFollow_split :
    (State.reset.driveSplit 0xFFFFFFFFFFFFFFFF#64).splitValueI = some 0xFFFFFFFFFFFFFFFF#64 := by decide
theorem witness_outputsFollow_ligate :
    (State.reset.driveLigate 0#32 0x80000000#32).ligateLowI = some 0#32 ∧
    (State.reset.driveLigate 0#32 0x80000000#32).ligateHighI = some 0x80000000#32 := by decide
theorem witness_released_split : (withMoves [.release .split]).pending = .release .split :: [] := by decide
theorem witness_released_ligate :
    (withMoves [.release .ligate]).pending = .release .ligate :: [] := by decide
theorem witness_resultsDependOnTheRequestAlone :
    (withMoves [.invoke 1#65]).pending =
      ({ withMoves [.invoke 1#65] with trace := [⟨0#65, 0#64⟩] }).pending := by decide
theorem witness_bothDatapathsAtOnce :
    (withMoves [.invokeBoth 0#64 0#32 0xFFFFFFFF#32, .release .split]).pending =
      .invokeBoth 0#64 0#32 0xFFFFFFFF#32 :: [.release .split] := by decide
theorem witness_hostChains :
    (withMoves [.invoke (encode (.split 0x7FF8000000000001#64))]).pending =
      [.invoke (encode (.split 0x7FF8000000000001#64))] := by decide
theorem witness_instances : ([State.reset, withMoves [.invoke 1#65]] : List State)[1]? =
    some (withMoves [.invoke 1#65]) := by decide
theorem witness_reorderedMoves :
    ([.invoke 0#65, .release .split, .invoke 1#65] : List HostMove).Perm
      [.invoke 1#65, .release .split, .invoke 0#65] := by decide
/-- A state that has recorded an exchange already and has an invocation to make. -/
def withHistory : State :=
  { withMoves [.invoke 0x1DEADBEEFCAFEBABE#65] with
    trace := [⟨0x1DEADBEEFCAFEBABE#65, 0xDEADBEEFCAFEBABE#64⟩] }

theorem witness_stepsKeepEveryExchangeSound :
    withHistory.TraceSound ∧ ∃ t, step withHistory = .next t := by
  refine ⟨?_, _, rfl⟩
  intro e he
  have h : e = ⟨0x1DEADBEEFCAFEBABE#65, 0xDEADBEEFCAFEBABE#64⟩ := by simpa [withHistory] using he
  subst h
  unfold Exchange.Sound
  decide
theorem witness_stepsKeepLigateInputsTogether :
    (withMoves [.invoke 0x1DEADBEEFCAFEBABE#65]).LigateDrivenTogether ∧
    ∃ t, step (withMoves [.invoke 0x1DEADBEEFCAFEBABE#65]) = .next t :=
  ⟨rfl, _, rfl⟩

end Sys2Proof.Tests
end

section
/-!
PROOFS. SPLIT (40_split.md R48, R52): which output ports the updates of the state leave alone, what SPLIT leaves on
all six ports, and the pairs it delivers, which are exactly those of the split datapath.
-/
namespace Sys2Proof.Machine

/-! ## Output ports after an update of the state (10_state.md R17, R18) -/

@[simp] theorem State.driveSplit_ligateValueO (s : State) (value : Pattern) :
    (s.driveSplit value).ligateValueO = s.ligateValueO := rfl

@[simp] theorem State.record_ligateValueO (s : State) (request : ReqWord) (response : RspWord) :
    (s.record request response).ligateValueO = s.ligateValueO := rfl

/-! ## What SPLIT delivers -/

/-- R48 on the ports: from every state SPLIT shows its operand and the two halves, and writes nothing of the block
and no port of the ligate datapath. -/
theorem exec_split_ports (value : Pattern) (s : State) :
    ∃ t : State, exec (.split value) s = .next t ∧
      t.splitValueI = some value ∧
      t.splitLowO = some (split value).low ∧ t.splitHighO = some (split value).high ∧
      t.block = s.block ∧ t.ligateLowI = s.ligateLowI ∧ t.ligateHighI = s.ligateHighI ∧
      t.ligateValueO = s.ligateValueO := by
  refine ⟨_, exec_split value s, ?driven, State.splitLowO_of_driven ?driven,
    State.splitHighO_of_driven ?driven, ?frame⟩
  case driven => simp
  case frame => simp

/-- R52: SPLIT answers a next state for every operand, from every state. -/
theorem exec_split_completes (value : Pattern) (s : State) : Completes (exec (.split value) s) :=
  ⟨_, exec_split value s⟩

/-- The pair SPLIT delivers from every state is the one the datapath wires, and no other. -/
theorem splitGives_iff {value : Pattern} {low high : Half} :
    SplitGives value low high ↔ split value = ⟨low, high⟩ := by
  constructor
  · intro h
    obtain ⟨t, ht, hlow, hhigh⟩ := h State.reset
    obtain ⟨u, hu, -, hlow', hhigh', -⟩ := exec_split_ports value State.reset
    obtain rfl : t = u := by simpa [ht] using hu
    have hl : (split value).low = low := by simpa [hlow'] using hlow
    have hh : (split value).high = high := by simpa [hhigh'] using hhigh
    rw [← hl, ← hh]
  · intro h s
    obtain ⟨t, ht, -, hlow, hhigh, -⟩ := exec_split_ports value s
    exact ⟨t, ht, by rw [hlow, h], by rw [hhigh, h]⟩

/-! ## The obligations -/

/-- Settles O14: the ports are `exec_split_ports`, the bits are those of the datapath and of the encoding, and
`splitGives_iff` turns each corner case into the datapath's value at one pattern, which is computed. -/
theorem splitDeliversBothHalves : Obligations.SplitDeliversBothHalves := by
  unfold Obligations.SplitDeliversBothHalves
  refine ⟨fun value => ⟨(split value).low, (split value).high, exec_split_ports value, ?bits, rfl⟩,
    fun value => ⟨?op, ?operand, rfl⟩, ?corners⟩
  case bits => exact fun i hi => ⟨split_low_getLsbD value i hi, split_high_getLsbD value i hi⟩
  case op => exact encode_split_getLsbD value 64
  case operand =>
    intro k hk
    rw [encode_split_getLsbD, if_pos hk]
  case corners =>
    simp only [splitGives_iff]
    decide

/-- Settles O15: completion is `exec_split_completes`, and by `splitGives_iff` a delivered pair equals the
datapath's. -/
theorem splitIsTotalWithOneResult : Obligations.SplitIsTotalWithOneResult := by
  unfold Obligations.SplitIsTotalWithOneResult
  intro value
  refine ⟨exec_split_completes value, split value, splitGives_iff.mpr rfl, ?unique⟩
  case unique => exact fun q hq => (splitGives_iff.mp hq).symm

end Sys2Proof.Machine
end

section
/-!
PROOFS. LIGATE (41_ligate.md R54, R58): which output ports the updates of the state leave alone, what LIGATE leaves on
all six ports, and the values it delivers, which are exactly those of the ligate datapath.
-/
namespace Sys2Proof.Machine

/-! ## Output ports after an update of the state (10_state.md R17, R18) -/

@[simp] theorem State.driveLigate_splitLowO (s : State) (low high : Half) :
    (s.driveLigate low high).splitLowO = s.splitLowO := rfl

@[simp] theorem State.driveLigate_splitHighO (s : State) (low high : Half) :
    (s.driveLigate low high).splitHighO = s.splitHighO := rfl

@[simp] theorem State.record_splitLowO (s : State) (request : ReqWord) (response : RspWord) :
    (s.record request response).splitLowO = s.splitLowO := rfl

@[simp] theorem State.record_splitHighO (s : State) (request : ReqWord) (response : RspWord) :
    (s.record request response).splitHighO = s.splitHighO := rfl

/-! ## Bits of the two halves of the operand field -/

/-- Below bit 32 a ligated value is its low half (R54). -/
theorem ligate_getLsbD_low (low high : Half) {i : Nat} (hi : i < 32) :
    (ligate low high).getLsbD i = low.getLsbD i := by
  rw [ligate_getLsbD, if_pos hi]

/-- From bit 32 on a ligated value is its high half (R54). -/
theorem ligate_getLsbD_high (low high : Half) (i : Nat) :
    (ligate low high).getLsbD (32 + i) = high.getLsbD i := by
  rw [ligate_getLsbD, if_neg (by omega), Nat.add_sub_cancel_left]

/-- The operand field of LIGATE's request word is the ligated value (R40, R41). -/
theorem encode_ligate_getLsbD_operand (low high : Half) {i : Nat} (hi : i < 64) :
    (encode (.ligate low high)).getLsbD i = (ligate low high).getLsbD i := by
  rw [encode_ligate_getLsbD, if_pos hi]

/-! ## What LIGATE delivers -/

/-- R54 on the ports: from every state LIGATE shows its operands and their concatenation, and writes nothing of the
block and no port of the split datapath. -/
theorem exec_ligate_ports (low high : Half) (s : State) :
    ∃ t : State, exec (.ligate low high) s = .next t ∧
      t.ligateLowI = some low ∧ t.ligateHighI = some high ∧
      t.ligateValueO = some (ligate low high) ∧
      t.block = s.block ∧ t.splitValueI = s.splitValueI ∧
      t.splitLowO = s.splitLowO ∧ t.splitHighO = s.splitHighO := by
  refine ⟨_, exec_ligate low high s, ?drivenLow, ?drivenHigh,
    State.ligateValueO_of_driven ?drivenLow ?drivenHigh, ?frame⟩
  case drivenLow => simp
  case drivenHigh => simp
  case frame => simp

/-- R58: LIGATE answers a next state for every pair, from every state. -/
theorem exec_ligate_completes (low high : Half) (s : State) :
    Completes (exec (.ligate low high) s) :=
  ⟨_, exec_ligate low high s⟩

/-- The value LIGATE delivers from every state is the one the datapath wires, and no other. -/
theorem ligateGives_iff {low high : Half} {value : Pattern} :
    LigateGives low high value ↔ ligate low high = value := by
  constructor
  · intro h
    obtain ⟨t, ht, hvalue⟩ := h State.reset
    obtain ⟨u, hu, -, -, hvalue', -⟩ := exec_ligate_ports low high State.reset
    obtain rfl : t = u := by simpa [ht] using hu
    simpa [hvalue'] using hvalue
  · intro h s
    obtain ⟨t, ht, -, -, hvalue, -⟩ := exec_ligate_ports low high s
    exact ⟨t, ht, by rw [hvalue, h]⟩

/-! ## The obligations -/

/-- Settles O18: the ports are `exec_ligate_ports`, the bits are those of the datapath, which the operand field of the
request word repeats, and `ligateGives_iff` turns each corner case into the datapath's value at one pair, which is
computed. -/
theorem ligateDeliversTheConcatenation : Obligations.LigateDeliversTheConcatenation := by
  unfold Obligations.LigateDeliversTheConcatenation
  refine ⟨fun low high => ⟨ligate low high, exec_ligate_ports low high, ?bits, rfl⟩,
    fun low high => ⟨?op, ?operand, rfl⟩, ?corners⟩
  case bits => exact fun i hi => ⟨ligate_getLsbD_low low high hi, ligate_getLsbD_high low high i⟩
  case op => exact encode_ligate_getLsbD low high 64
  case operand =>
    intro k hk
    constructor
    · rw [encode_ligate_getLsbD_operand low high (by omega), ligate_getLsbD_low low high hk]
    · rw [encode_ligate_getLsbD_operand low high (by omega), ligate_getLsbD_high]
  case corners =>
    simp only [ligateGives_iff]
    decide

/-- Settles O19: completion is `exec_ligate_completes`, and by `ligateGives_iff` a delivered value equals the
datapath's. -/
theorem ligateIsTotalWithOneResult : Obligations.LigateIsTotalWithOneResult := by
  unfold Obligations.LigateIsTotalWithOneResult
  intro low high
  refine ⟨exec_ligate_completes low high, ligate low high, ligateGives_iff.mpr rfl, ?unique⟩
  case unique => exact fun u hu => (ligateGives_iff.mp hu).symm

end Sys2Proof.Machine
end

section
/-!
PROOFS. The contract (42_contract_and_numerics.md R60, R61): the two datapaths undo each other, bit by bit, and so do
the two operations, which deliver what the datapaths wire.
-/
namespace Sys2Proof.Machine

/-! ## The datapaths undo each other -/

/-- R60 on the wires: below bit 32 the ligated halves are the pattern's low half, from bit 32 on its high half. -/
@[simp] theorem ligate_split (v : Pattern) : ligate (split v).low (split v).high = v := by
  apply BitVec.eq_of_getLsbD_eq
  intro i hi
  rcases Nat.lt_or_ge i 32 with hlow | hhigh
  · rw [ligate_getLsbD_low _ _ hlow, split_low_getLsbD v i hlow]
  · obtain ⟨j, rfl⟩ := Nat.exists_eq_add_of_le hhigh
    rw [ligate_getLsbD_high, split_high_getLsbD v j (by omega)]

/-- R61 on the wires: each half of a ligated value is the operand it was made of. -/
@[simp] theorem split_ligate (low high : Half) : split (ligate low high) = ⟨low, high⟩ := by
  have hlow : (split (ligate low high)).low = low := by
    apply BitVec.eq_of_getLsbD_eq
    intro i hi
    rw [split_low_getLsbD _ i hi, ligate_getLsbD_low low high hi]
  have hhigh : (split (ligate low high)).high = high := by
    apply BitVec.eq_of_getLsbD_eq
    intro i hi
    rw [split_high_getLsbD _ i hi, ligate_getLsbD_high]
  exact congrArg₂ SplitPair.mk hlow hhigh

/-! ## The obligations -/

/-- Settles O24: the halves are the split datapath's, and `ligate_split` joins them to the pattern again. -/
theorem ligateOfSplitIsTheIdentity : Obligations.LigateOfSplitIsTheIdentity := by
  unfold Obligations.LigateOfSplitIsTheIdentity
  intro v
  exact ⟨(split v).low, (split v).high, splitGives_iff.mpr rfl, ligateGives_iff.mpr (ligate_split v)⟩

/-- Settles O25: the value is the ligate datapath's, and `split_ligate` takes it apart into the pair again. -/
theorem splitOfLigateIsTheIdentity : Obligations.SplitOfLigateIsTheIdentity := by
  unfold Obligations.SplitOfLigateIsTheIdentity
  intro low high
  exact ⟨ligate low high, ligateGives_iff.mpr rfl, splitGives_iff.mpr (split_ligate low high)⟩

end Sys2Proof.Machine
end

section
/-!
PROOFS. The request word (30_encoding.md R40 to R45): it is its operation bit and its operand field, nothing else, so
decoding and encoding undo each other by comparing these two parts.
-/
namespace Sys2Proof

open Machine

/-- Two pairs with the same bits in both halves are the same pair (R37). -/
theorem SplitPair.eq_of_getLsbD {p q : SplitPair}
    (h : ∀ i < 32, p.low.getLsbD i = q.low.getLsbD i ∧ p.high.getLsbD i = q.high.getLsbD i) :
    p = q :=
  congrArg₂ SplitPair.mk (BitVec.eq_of_getLsbD_eq fun i hi => (h i hi).left)
    (BitVec.eq_of_getLsbD_eq fun i hi => (h i hi).right)

/-! ## The two parts of a request word -/

/-- The operand field of an operation's request word, `req[63:0]` (R40): SPLIT's value, or LIGATE's `{high, low}`. -/
def Instr.operand : Instr → Pattern
  | .split value => value
  | .ligate low high => Machine.ligate low high

theorem value_getLsbD (w : ReqWord) {i : Nat} (hi : i < 64) :
    (ReqWord.value w).getLsbD i = w.getLsbD i := by
  simp [ReqWord.value, hi]

/-- LIGATE's operands are the halves of the operand field (R40). -/
theorem split_value (w : ReqWord) : split (ReqWord.value w) = ⟨ReqWord.low w, ReqWord.high w⟩ := by
  refine SplitPair.eq_of_getLsbD fun i hi => ⟨?low, ?high⟩
  case low => rw [split_low_getLsbD _ i hi, value_getLsbD w (by omega)]; simp [ReqWord.low, hi]
  case high => rw [split_high_getLsbD _ i hi, value_getLsbD w (by omega)]; simp [ReqWord.high, hi]

/-- Two request words with the same operation bit and the same operand field are the same word. -/
theorem eq_of_op_of_value {w w' : ReqWord} (hop : w.getLsbD 64 = w'.getLsbD 64)
    (hvalue : ReqWord.value w = ReqWord.value w') : w = w' := by
  apply BitVec.eq_of_getLsbD_eq
  intro i hi
  rcases Nat.lt_or_ge i 64 with hlow | hhigh
  · rw [← value_getLsbD w hlow, hvalue, value_getLsbD w' hlow]
  · obtain rfl : i = 64 := by omega
    exact hop

/-! ## What the encoder writes and the decoder reads -/

/-- The encoder puts the operand in the operand field. -/
@[simp] theorem value_encode (i : Instr) : ReqWord.value (encode i) = i.operand := by
  apply BitVec.eq_of_getLsbD_eq
  intro k hk
  rw [value_getLsbD _ hk]
  cases i with
  | split value => rw [encode_split_getLsbD, if_pos hk, Instr.operand]
  | ligate low high => rw [encode_ligate_getLsbD_operand low high hk, Instr.operand]

theorem encode_split_op (value : Pattern) : (encode (.split value)).getLsbD 64 = false := by
  rw [encode_split_getLsbD, if_neg (by decide)]

theorem encode_ligate_op (low high : Half) : (encode (.ligate low high)).getLsbD 64 = true := by
  rw [encode_ligate_getLsbD, if_neg (by decide)]; rfl

/-- The decoded operation has the word's operand field as its operand, whichever operation it is. -/
@[simp] theorem operand_decode (w : ReqWord) : (decode w).operand = ReqWord.value w := by
  cases hop : w.getLsbD 64 with
  | false => rw [decode_of_op_false w hop, Instr.operand]
  | true =>
    have hjoin := ligate_split (ReqWord.value w)
    rw [split_value] at hjoin
    rw [decode_of_op_true w hop, Instr.operand, hjoin]

/-- Decoding an operation's request word: bit 64 gives the operation back, the operand field its operands. -/
@[simp] theorem decode_encode (i : Instr) : decode (encode i) = i := by
  cases i with
  | split value =>
    rw [decode_of_op_false _ (encode_split_op value), value_encode, Instr.operand]
  | ligate low high =>
    rw [decode_of_op_true _ (encode_ligate_op low high)]
    have halves := split_value (encode (.ligate low high))
    rw [value_encode, Instr.operand, split_ligate, SplitPair.mk.injEq] at halves
    obtain ⟨hlow, hhigh⟩ := halves
    rw [← hlow, ← hhigh]

/-- Encoding what a word decodes to: the same operation bit and the same operand field. -/
@[simp] theorem encode_decode (w : ReqWord) : encode (decode w) = w := by
  refine eq_of_op_of_value ?op (by simp)
  case op =>
    cases hop : w.getLsbD 64 with
    | false => rw [decode_of_op_false w hop, encode_split_op]
    | true => rw [decode_of_op_true w hop, encode_ligate_op]

/-! ## The opcode map (R43) -/

/-- The mnemonic of the decoded operation is chosen by bit 64 alone. -/
theorem mnemonic_decode (w : ReqWord) :
    (decode w).mnemonic = if w.getLsbD 64 then "LIGATE" else "SPLIT" := by
  cases hop : w.getLsbD 64 with
  | false => rw [decode_of_op_false w hop]; rfl
  | true => rw [decode_of_op_true w hop]; rfl

/-- A word spells exactly the rows with the mnemonic of the operation it decodes to. -/
theorem spells_iff (w : ReqWord) {r : TableRow} (hr : r ∈ opcodeTable) :
    r.spells w = true ↔ r.mnemonic = (decode w).mnemonic := by
  have own : Laws.SpellsOwnRow.Statement (decode w) := by
    cases decode w with
    | split value => exact Laws.SpellsOwnRow.split value
    | ligate low high => exact Laws.SpellsOwnRow.ligate low high
  simpa using own r hr

theorem exists_row_of_mnemonic (i : Instr) : ∃ r ∈ opcodeTable, r.mnemonic = i.mnemonic := by
  cases i <;> simp [opcodeTable, Instr.mnemonic]

/-- No two rows of the opcode map share a mnemonic (R47). -/
theorem row_unique : ∀ r ∈ opcodeTable, ∀ r' ∈ opcodeTable, r'.mnemonic = r.mnemonic → r' = r := by
  decide

/-! ## The obligations -/

/-- Settles O2: every operation is legal, and `decode_encode` reads it back. -/
theorem decodeInvertsEncode : Obligations.DecodeInvertsEncode := by
  unfold Obligations.DecodeInvertsEncode
  intro i
  exact ⟨by cases i <;> rfl, decode_encode i⟩

/-- Settles O3: `encode_decode`, which compares the operation bit and the operand field. -/
theorem encodeInvertsDecode : Obligations.EncodeInvertsDecode := by
  unfold Obligations.EncodeInvertsDecode
  exact encode_decode

/-- Settles O4: the spelled rows are those with the decoded mnemonic, and there is one such row. -/
theorem everyWordSpellsExactlyOneRow : Obligations.EveryWordSpellsExactlyOneRow := by
  unfold Obligations.EveryWordSpellsExactlyOneRow
  intro w
  obtain ⟨r, hr, hmnemonic⟩ := exists_row_of_mnemonic (decode w)
  refine ⟨⟨r, hr, (spells_iff w hr).mpr hmnemonic, hmnemonic, ?unique⟩, ?bit64⟩
  case unique =>
    intro r' hr' hspells
    exact row_unique r hr r' hr' (((spells_iff w hr').mp hspells).trans hmnemonic.symm)
  case bit64 =>
    intro w' hop
    rw [mnemonic_decode, mnemonic_decode, hop]

/-- Settles O1: the decoder run on the eight words. -/
theorem specWordsDecode : Obligations.SpecWordsDecode := by
  unfold Obligations.SpecWordsDecode
  decide

/-- Settles O5: the decoder's two cases, and the bits of each operand field. -/
theorem operandsAreFieldsOfTheRequest : Obligations.OperandsAreFieldsOfTheRequest := by
  unfold Obligations.OperandsAreFieldsOfTheRequest
  intro w
  refine ⟨fun hop => ⟨_, decode_of_op_false w hop, fun k hk => value_getLsbD w hk⟩,
    fun hop => ⟨_, _, decode_of_op_true w hop, fun k hk => ⟨?low, ?high⟩⟩⟩
  case low => simp [ReqWord.low, hk]
  case high => simp [ReqWord.high, hk]

end Sys2Proof
end

section
/-!
PROOFS. Steps and runs (10_state.md R20, 70_reset_and_hazards.md R98 to R100). Every move answers a next state with the
same moves pending and the exchanges of its requests added, each by the identity of R41; a step and a run follow from
that. A second invariant, of the ligate inputs, is kept by every move.
-/
namespace Sys2Proof.Machine

/-! ## The exchange an invocation adds (30_encoding.md R41) -/

/-- The response to a request is its operand field. -/
theorem identityExchange_eq (w : ReqWord) : identityExchange w = ⟨w, ReqWord.value w⟩ := by
  refine congrArg (Exchange.mk w) (BitVec.eq_of_getLsbD_eq fun i hi => ?_)
  rw [value_getLsbD w hi, BitVec.getLsbD_setWidth, decide_eq_true hi, Bool.true_and]

theorem identityExchange_sound (w : ReqWord) : (identityExchange w).Sound := by
  intro k hk
  rw [identityExchange_eq]
  exact value_getLsbD w hk

theorem identityExchange_encode (i : Instr) :
    identityExchange (encode i) = ⟨encode i, i.operand⟩ := by
  rw [identityExchange_eq, value_encode]

/-- SPLIT's response word joins the two halves it delivered. -/
theorem splitResponse_split (value : Pattern) : splitResponse (split value) = value :=
  ligate_split value

/-! ## What an invocation, a move and a step do -/

/-- An operation completes, takes no move from the queue, and adds the exchange of its request. -/
theorem exec_records (i : Instr) (s : State) :
    ∃ t, exec i s = .next t ∧ t.pending = s.pending ∧
      t.trace = s.trace ++ [identityExchange (encode i)] := by
  rw [identityExchange_encode]
  cases i with
  | split value =>
    exact ⟨_, exec_split value s, by simp, by simp [splitResponse_split, Instr.operand]⟩
  | ligate low high => exact ⟨_, exec_ligate low high s, by simp, rfl⟩

/-- A move completes, takes no further move from the queue, and adds the exchanges of its requests. -/
theorem runMove_records (m : HostMove) (s : State) :
    ∃ t, runMove m s = .next t ∧ t.pending = s.pending ∧
      t.trace = s.trace ++ m.requests.map identityExchange := by
  cases m with
  | invoke w =>
    have h := exec_records (decode w) s
    rw [encode_decode] at h
    exact h
  | invokeBoth value low high =>
    obtain ⟨t, ht, htp, htt⟩ := exec_records (.split value) s
    obtain ⟨u, hu, hup, hut⟩ := exec_records (.ligate low high) t
    exact ⟨u, by rw [runMove, ht, andThen_next, hu], by rw [hup, htp],
      by rw [hut, htt, List.append_assoc]; rfl⟩
  | release d => exact ⟨_, rfl, by cases d <;> rfl, by cases d <;> exact (List.append_nil _).symm⟩

theorem step_of_pending_nil {s : State} (h : s.pending = []) : step s = .next s := by
  rw [step, State.nextMove_nil h]

theorem step_of_pending_cons {s : State} {m : HostMove} {rest : List HostMove}
    (h : s.pending = m :: rest) : step s = runMove m { s with pending := rest } := by
  rw [step, State.nextMove_cons h]

/-- A step with a move left takes it and adds the exchanges of its requests. -/
theorem step_records {s : State} {m : HostMove} {rest : List HostMove}
    (h : s.pending = m :: rest) :
    ∃ t, step s = .next t ∧ t.pending = rest ∧
      t.trace = s.trace ++ m.requests.map identityExchange := by
  rw [step_of_pending_cons h]
  exact runMove_records m { s with pending := rest }

/-- Whatever a step does to the record is to add exchanges of the identity of R41. -/
theorem step_adds_identityExchanges {s t : State} (h : step s = .next t) :
    ∃ ws : List ReqWord, t.trace = s.trace ++ ws.map identityExchange := by
  rcases step_cases s with ⟨-, hstep⟩ | ⟨m, rest, hpending, -⟩
  · obtain rfl : s = t := by simpa [hstep] using h
    exact ⟨[], by simp⟩
  · obtain ⟨u, hu, -, htrace⟩ := step_records hpending
    obtain rfl : u = t := by simpa [hu] using h
    exact ⟨m.requests, htrace⟩

theorem exec_completes (i : Instr) (s : State) : Completes (exec i s) := by
  obtain ⟨t, ht, -⟩ := exec_records i s
  exact ⟨t, ht⟩

theorem step_completes (s : State) : Completes (step s) := by
  rcases step_cases s with ⟨-, hstep⟩ | ⟨m, rest, hpending, -⟩
  · exact ⟨s, hstep⟩
  · obtain ⟨t, ht, -⟩ := step_records hpending
    exact ⟨t, ht⟩

/-! ## The ligate inputs are driven together -/

/-- An operation presents both ligate inputs or leaves both as they were (R20). -/
theorem exec_keeps_ligateDrivenTogether {i : Instr} {s t : State}
    (hs : s.LigateDrivenTogether) (h : exec i s = .next t) : t.LigateDrivenTogether := by
  cases i with
  | split value =>
    obtain rfl : _ = t := by simpa [exec_split] using h
    simpa [State.LigateDrivenTogether] using hs
  | ligate low high =>
    obtain rfl : _ = t := by simpa [exec_ligate] using h
    simp [State.LigateDrivenTogether]

theorem runMove_keeps_ligateDrivenTogether {m : HostMove} {s t : State}
    (hs : s.LigateDrivenTogether) (h : runMove m s = .next t) : t.LigateDrivenTogether := by
  cases m with
  | invoke w => exact exec_keeps_ligateDrivenTogether hs h
  | invokeBoth value low high =>
    obtain ⟨u, hu⟩ := exec_completes (.split value) s
    rw [runMove, hu, andThen_next] at h
    exact exec_keeps_ligateDrivenTogether (exec_keeps_ligateDrivenTogether hs hu) h
  | release d =>
    obtain rfl : s.release d = t := by simpa [runMove] using h
    cases d with
    | split => simpa [State.LigateDrivenTogether] using hs
    | ligate => simp [State.LigateDrivenTogether]

/-! ## Runs -/

theorem run_succ_of_step {n : Nat} {s t : State} (h : step s = .next t) :
    Host.Core.run core (n + 1) s = Host.Core.run core n t := by
  have hcore : core.step s = .next t := h
  simp only [Host.Core.run, hcore]

/-- A run of as many steps as there are moves makes them all and adds the exchanges of their requests, in order. -/
theorem run_records {s : State} {moves : List HostMove} (h : s.pending = moves) :
    ∃ t, Host.Core.run core moves.length s = .next t ∧ t.pending = [] ∧
      t.trace = s.trace ++ (moves.flatMap HostMove.requests).map identityExchange := by
  induction moves generalizing s with
  | nil => exact ⟨s, rfl, h, by simp⟩
  | cons m rest ih =>
    obtain ⟨t, ht, htp, htt⟩ := step_records h
    obtain ⟨u, hu, hup, hut⟩ := ih htp
    exact ⟨u, by rw [List.length_cons, run_succ_of_step ht, hu], hup,
      by rw [hut, htt, List.flatMap_cons, List.map_append, List.append_assoc]⟩

/-! ## The obligations -/

/-- Settles O48: a step only adds exchanges of the identity of R41, and these are sound. -/
theorem stepsKeepEveryExchangeSound : Obligations.StepsKeepEveryExchangeSound := by
  unfold Obligations.StepsKeepEveryExchangeSound
  intro s t hs h e he
  obtain ⟨ws, htrace⟩ := step_adds_identityExchanges h
  rw [htrace, List.mem_append, List.mem_map] at he
  rcases he with hold | ⟨w, -, rfl⟩
  · exact hs e hold
  · exact identityExchange_sound w

/-- Settles O50: a step changes nothing or makes one move, and every move keeps the two inputs together. -/
theorem stepsKeepLigateInputsTogether : Obligations.StepsKeepLigateInputsTogether := by
  unfold Obligations.StepsKeepLigateInputsTogether
  intro s t hs h
  rcases step_cases s with ⟨-, hstep⟩ | ⟨m, rest, -, hstep⟩
  · obtain rfl : s = t := by simpa [hstep] using h
    exact hs
  · rw [hstep] at h
    exact runMove_keeps_ligateDrivenTogether (s := { s with pending := rest }) hs h

/-- Settles O13: every operation and every step completes, and `Fault` has no constructor. -/
theorem everyStepAnswersANextState : Obligations.EveryStepAnswersANextState := by
  unfold Obligations.EveryStepAnswersANextState
  exact ⟨fun w => exec_completes (decode w), step_completes, fun ⟨r⟩ => nomatch r⟩

/-- Settles O45: `run_records`. -/
theorem runAnswersEveryRequest : Obligations.RunAnswersEveryRequest := by
  unfold Obligations.RunAnswersEveryRequest
  exact fun s => run_records rfl

/-- Settles O46: both runs add the exchanges of their moves, and permuted moves have permuted exchanges. -/
theorem reorderedMovesGiveTheSameExchanges : Obligations.ReorderedMovesGiveTheSameExchanges := by
  unfold Obligations.ReorderedMovesGiveTheSameExchanges
  intro s moves moves' hperm
  obtain ⟨t, ht, -, htrace⟩ := run_records (s := { s with pending := moves }) rfl
  obtain ⟨t', ht', -, htrace'⟩ := run_records (s := { s with pending := moves' }) rfl
  refine ⟨t, t', ht, ht', ?trace, rfl⟩
  case trace =>
    rw [htrace, htrace']
    exact ((hperm.flatMap_right _).map _).append_left _

/-- Settles O40: the exchange an operation adds and the ports it leaves name no state, and by `run_records` neither do
the exchanges of a run. -/
theorem resultsDependOnTheRequestAlone : Obligations.ResultsDependOnTheRequestAlone := by
  unfold Obligations.ResultsDependOnTheRequestAlone
  refine ⟨fun i s s' => ?invocation, fun s s' hpending => ?run⟩
  case invocation =>
    cases i with
    | split value =>
      exact ⟨_, _, _, exec_split value s, exec_split value s', rfl, rfl, rfl, rfl, rfl⟩
    | ligate low high =>
      exact ⟨_, _, _, exec_ligate low high s, exec_ligate low high s', rfl, rfl, rfl, rfl, rfl⟩
  case run =>
    obtain ⟨t, ht, -, htrace⟩ := run_records (s := s) rfl
    obtain ⟨t', ht', -, htrace'⟩ := run_records (s := s') rfl
    exact ⟨t, t', _, ht, ht', htrace, by rw [htrace', hpending]⟩

end Sys2Proof.Machine
end

section
/-!
PROOFS. The boundary where a bench's vector or a table's number becomes a request word (30_encoding.md R44, R45; the
model's choices are log entry 11), and a request word placed for the next step (log entry 1).
-/
namespace Sys2Proof

open Machine

/-! ## The wires of a bench's vector -/

/-- The wire reported as the first undefined one carries no defined bit. -/
theorem getElem?_of_firstUndefined {ws : List Signal} {i j : Nat} (h : firstUndefined ws i = some j) :
    ∃ k, j = i + k ∧ ws[k]? = some none := by
  induction ws generalizing i with
  | nil => simp [firstUndefined] at h
  | cons wire ws ih =>
    cases wire with
    | none => exact ⟨0, by simpa [firstUndefined] using h.symm, rfl⟩
    | some b =>
      obtain ⟨k, rfl, hk⟩ := ih (i := i + 1) h
      exact ⟨k + 1, by omega, hk⟩

theorem firstUndefined_eq_none_iff (ws : List Signal) (i : Nat) :
    firstUndefined ws i = none ↔ fullyDefined ws = true := by
  induction ws generalizing i with
  | nil => simp [firstUndefined, fullyDefined]
  | cons wire ws ih =>
    cases wire with
    | none => simp [firstUndefined, fullyDefined]
    | some b => simpa [firstUndefined, fullyDefined] using ih (i + 1)

/-- Wires that carry the low `n` bits of a number have its value modulo `2^n` (00_scope.md R7). -/
theorem signalsToNat_testBit (n x : Nat) :
    signalsToNat ((List.range n).map fun k => some (x.testBit k)) = x % 2 ^ n := by
  induction n generalizing x with
  | zero => simp [signalsToNat, Nat.mod_one]
  | succ n ih =>
    have hlow : (if some (x.testBit 0) = some true then 1 else 0) = x % 2 := by
      rcases Nat.mod_two_eq_zero_or_one x with h | h <;> simp [Nat.testBit_zero, h]
    have hrest := ih (x / 2)
    simp only [Nat.testBit_div_two] at hrest
    calc signalsToNat ((List.range (n + 1)).map fun k => some (x.testBit k))
        = x % 2 + 2 * signalsToNat ((List.range n).map fun k => some (x.testBit (k + 1))) := by
          rw [List.range_succ_eq_map, List.map_cons, List.map_map, signalsToNat, hlow]; rfl
      _ = x % 2 ^ (n + 1) := by rw [hrest, Nat.pow_succ', Nat.mod_mul]

/-! ## Decoding a bench's vector -/

theorem requestWidthOk_iff (ws : List Signal) : requestWidthOk ws = true ↔ ws.length = 65 :=
  beq_iff_eq

theorem decodeSignals_of_width_ne {ws : List Signal} (h : ws.length ≠ 65) :
    decodeSignals ws = .error (.wrongWidth ws.length) := by
  rw [decodeSignals, requestOfSignals, if_neg (mt (requestWidthOk_iff ws).mp h)]

theorem decodeSignals_of_undefined {ws : List Signal} (hwidth : ws.length = 65)
    (hdefined : fullyDefined ws = false) :
    ∃ i, decodeSignals ws = .error (.undefinedBit i) ∧ ws[i]? = some none := by
  obtain ⟨i, hi⟩ : ∃ i, firstUndefined ws 0 = some i := by
    rw [← Option.ne_none_iff_exists', ne_eq, firstUndefined_eq_none_iff, hdefined]
    decide
  obtain ⟨k, hk, hwire⟩ := getElem?_of_firstUndefined hi
  rw [Nat.zero_add] at hk
  refine ⟨i, ?_, hk ▸ hwire⟩
  rw [decodeSignals, requestOfSignals, if_pos ((requestWidthOk_iff ws).mpr hwidth), hi]

theorem decodeSignals_of_defined {ws : List Signal} (hwidth : ws.length = 65)
    (hdefined : fullyDefined ws = true) :
    decodeSignals ws = .ok (decode (BitVec.ofNat 65 (signalsToNat ws))) := by
  rw [decodeSignals, requestOfSignals, if_pos ((requestWidthOk_iff ws).mpr hwidth),
    (firstUndefined_eq_none_iff ws 0).mpr hdefined]

theorem isRequestVector_iff (ws : List Signal) :
    isRequestVector ws = true ↔ ws.length = 65 ∧ fullyDefined ws = true := by
  rw [isRequestVector, Bool.and_eq_true, requestWidthOk_iff]

/-- The wires of a request word, all defined, decode as that word. -/
theorem decodeSignals_wires (w : ReqWord) :
    decodeSignals ((List.range 65).map fun k => some (w.getLsbD k)) = .ok (decode w) := by
  have hvalue : signalsToNat ((List.range 65).map fun k => some (w.getLsbD k)) = w.toNat :=
    (signalsToNat_testBit 65 w.toNat).trans (Nat.mod_eq_of_lt w.isLt)
  rw [decodeSignals_of_defined (by simp) (by simp [fullyDefined]), hvalue, BitVec.ofNat_toNat,
    BitVec.setWidth_eq]

/-! ## Numbers as request words -/

theorem requestOfNat_of_lt {nbits w : Nat} (h : w % 2 ^ nbits < 2 ^ 65) :
    requestOfNat nbits w = some (BitVec.ofNat 65 (w % 2 ^ nbits)) :=
  if_pos h

theorem requestOfNat_of_le {nbits w : Nat} (h : 2 ^ 65 ≤ w % 2 ^ nbits) :
    requestOfNat nbits w = none :=
  if_neg (Nat.not_lt.mpr h)

/-- A number of 65 bits is the request word with those bits, of whatever larger width it is given. -/
theorem requestOfNat_of_word {nbits w : Nat} (hbits : 65 ≤ nbits) (hw : w < 2 ^ 65) :
    requestOfNat nbits w = some (BitVec.ofNat 65 w) := by
  have hmod : w % 2 ^ nbits = w :=
    Nat.mod_eq_of_lt (Nat.lt_of_lt_of_le hw (Nat.pow_le_pow_right (by decide) hbits))
  rw [requestOfNat_of_lt (by rwa [hmod]), hmod]

/-- A number of fewer than 65 bits is the request word with zeros above it. -/
theorem requestOfNat_of_short {nbits : Nat} (w : Nat) (hbits : nbits < 65) :
    requestOfNat nbits w = some ((BitVec.ofNat nbits w).setWidth 65) := by
  have hlt : w % 2 ^ nbits < 2 ^ 65 :=
    Nat.lt_trans (Nat.mod_lt w (Nat.two_pow_pos nbits)) (Nat.pow_lt_pow_right (by decide) hbits)
  rw [requestOfNat_of_lt hlt, ← BitVec.ofNat_toNat, BitVec.toNat_ofNat]

/-- Bits at and above the given width do not count. -/
theorem requestOfNat_mod (nbits w : Nat) :
    requestOfNat nbits (w % 2 ^ nbits) = requestOfNat nbits w := by
  rw [requestOfNat, Nat.mod_mod]; rfl

/-! ## The obligations -/

/-- Settles O6: the three ways through the boundary, of which only 65 defined wires decode. -/
theorem benchVectorsAreCheckedAtTheBoundary : Obligations.BenchVectorsAreCheckedAtTheBoundary := by
  unfold Obligations.BenchVectorsAreCheckedAtTheBoundary
  refine ⟨fun ws => decodeSignals_of_width_ne, fun ws => decodeSignals_of_undefined,
    decodeSignals_wires, fun ws => ?accepts⟩
  case accepts =>
    rw [isRequestVector_iff]
    refine ⟨fun ⟨hwidth, hdefined⟩ => ⟨_, decodeSignals_of_defined hwidth hdefined⟩, ?_⟩
    rintro ⟨i, hi⟩
    have hwidth : ws.length = 65 := by
      by_contra hne
      rw [decodeSignals_of_width_ne hne] at hi
      cases hi
    refine ⟨hwidth, ?_⟩
    by_contra hundefined
    obtain ⟨k, hk, -⟩ := decodeSignals_of_undefined hwidth (Bool.eq_false_of_not_eq_true hundefined)
    rw [hk] at hi
    cases hi

/-- Settles O7: a clause for each of the four rules of `requestOfNat`. -/
theorem tableWordsDecode : Obligations.TableWordsDecode := by
  unfold Obligations.TableWordsDecode
  intro nbits w
  refine ⟨fun hbits hw => ?word, fun _ hlarge hw => ?large, fun hbits => ?short, fun _ => ?above⟩
  case word => rw [decodeTableWord, requestOfNat_of_word hbits hw, Option.map_some]
  case large =>
    rw [decodeTableWord, requestOfNat_of_le (by rwa [Nat.mod_eq_of_lt hw]), Option.map_none]
  case short => rw [decodeTableWord, requestOfNat_of_short w hbits, Option.map_some]
  case above => rw [decodeTableWord, decodeTableWord, requestOfNat_mod]

/-- Settles O12: the placed word is the head of the queue, and taking it leaves the state before. -/
theorem placedWordRunsNext : Obligations.PlacedWordRunsNext := by
  unfold Obligations.PlacedWordRunsNext
  intro s nbits w hbits hw
  have hplaced : s.withFetchWord nbits w =
      { s with pending := .invoke (BitVec.ofNat 65 w) :: s.pending } := by
    rw [State.withFetchWord, requestOfNat_of_word hbits hw]
  rw [hplaced, step_of_pending_cons rfl]
  rfl

end Sys2Proof
end

section
/-!
PROOFS. The written forms (00_scope.md R8, 30_encoding.md R46): what each reader gives on what the writer wrote, and the
digits of a request word, whose value as a number is its operation bit above its operand field.
-/
namespace Sys2Proof.Machine

/-! ## Reading back -/

theorem readWord_append (word rest : List Char) : readWord word (word ++ rest) = some rest := by
  induction word with
  | nil => rfl
  | cons c word ih => rw [List.cons_append, readWord, if_pos rfl, ih]

/-- A written literal of `n` digits reads back as the low `n` places of the number, also after a blank. -/
theorem readLiteral_hexLiteral (n x : Nat) (rest : List Char) :
    readLiteral n (hexLiteral n x ++ rest) = some (x % 16 ^ n, rest) := by
  have hprefix : readWord ['0', 'x'] (skipBlanks (hexLiteral n x ++ rest)) =
      some (hexDigits n x ++ rest) := readWord_append ['0', 'x'] (hexDigits n x ++ rest)
  rw [readLiteral, hprefix, Option.bind_some, readDigits_hexDigits, Nat.zero_mul, Nat.zero_add]

theorem readLiteral_blank (n : Nat) (cs : List Char) :
    readLiteral n (' ' :: cs) = readLiteral n cs := rfl

/-- A written 64-bit value reads back. -/
theorem readLiteral_writePattern (value : Pattern) (rest : List Char) :
    readLiteral 16 (writePattern value ++ rest) = some (value.toNat, rest) := by
  have hlt : value.toNat < 16 ^ 16 := value.isLt
  rw [writePattern, readLiteral_hexLiteral, Nat.mod_eq_of_lt hlt]

/-- A written 32-bit value reads back. -/
theorem readLiteral_writeHalf (half : Half) (rest : List Char) :
    readLiteral 8 (writeHalf half ++ rest) = some (half.toNat, rest) := by
  have hlt : half.toNat < 16 ^ 8 := half.isLt
  rw [writeHalf, readLiteral_hexLiteral, Nat.mod_eq_of_lt hlt]

theorem readSplitOperand_written {tail : List Char} (htail : readEnd tail = some ())
    (close : List Char) (value : Pattern) :
    readSplitOperand close (writePattern value ++ (close ++ tail)) = some (.split value) := by
  simp [readSplitOperand, readLiteral_writePattern, readWord_append, htail]

theorem readLigateOperands_written {tail : List Char} (htail : readEnd tail = some ())
    (close : List Char) (low high : Half) :
    readLigateOperands close
        (writeHalf low ++ ([',', ' '] ++ (writeHalf high ++ (close ++ tail)))) =
      some (.ligate low high) := by
  have hcomma : ∀ cs, readWord [','] (',' :: cs) = some cs := readWord_append [',']
  simp [readLigateOperands, readLiteral_writeHalf, hcomma, readLiteral_blank, readWord_append, htail]

/-- The first word of a line tells its spelling and its operation. -/
theorem readInstr_SPLIT (cs : List Char) :
    readInstr (['S', 'P', 'L', 'I', 'T', ' '] ++ cs) = readSplitOperand [] cs := rfl

theorem readInstr_LIGATE (cs : List Char) :
    readInstr (['L', 'I', 'G', 'A', 'T', 'E', ' '] ++ cs) = readLigateOperands [] cs := rfl

theorem readInstr_split (cs : List Char) :
    readInstr (['s', 'p', 'l', 'i', 't', '('] ++ cs) = readSplitOperand [')'] cs := rfl

theorem readInstr_ligate (cs : List Char) :
    readInstr (['l', 'i', 'g', 'a', 't', 'e', '('] ++ cs) = readLigateOperands [')'] cs := rfl

/-- A written line reads back, whatever end of line follows it. -/
theorem readInstr_writeInstr {tail : List Char} (htail : readEnd tail = some ()) (sp : Spelling)
    (i : Instr) : readInstr (writeInstr sp i ++ tail) = some i := by
  cases sp with
  | assembler =>
    cases i with
    | split value =>
      rw [writeInstr, List.append_assoc, readInstr_SPLIT]
      exact readSplitOperand_written htail [] value
    | ligate low high =>
      simp only [writeInstr, List.append_assoc]
      rw [readInstr_LIGATE]
      exact readLigateOperands_written htail [] low high
  | function =>
    cases i with
    | split value =>
      simp only [writeInstr, List.append_assoc]
      rw [readInstr_split]
      exact readSplitOperand_written htail [')'] value
    | ligate low high =>
      simp only [writeInstr, List.append_assoc]
      rw [readInstr_ligate]
      exact readLigateOperands_written htail [')'] low high

/-! ## The digits of a request word -/

/-- The low digits of a number do not see what stands above them. -/
theorem hexDigits_mod {n k : Nat} (h : n ≤ k) (x : Nat) :
    hexDigits n (x % 16 ^ k) = hexDigits n x := by
  induction n with
  | zero => rfl
  | succ n ih =>
    have hplace : x % 16 ^ k / 16 ^ n % 16 = x / 16 ^ n % 16 := by
      obtain ⟨j, rfl⟩ := Nat.exists_eq_add_of_le h
      rw [Nat.pow_add, Nat.pow_succ, Nat.mul_assoc, Nat.mod_mul_right_div_self,
        Nat.mod_mod_of_dvd _ (Nat.dvd_mul_right 16 _)]
    rw [hexDigits, hexDigits, hplace, ih (Nat.le_of_succ_le h)]

/-- The digits of a number are those of its upper places, then those of its lower ones. -/
theorem hexDigits_mul_add {n y : Nat} (hy : y < 16 ^ n) (m x : Nat) :
    hexDigits (m + n) (x * 16 ^ n + y) = hexDigits m x ++ hexDigits n y := by
  induction m with
  | zero =>
    rw [Nat.zero_add, ← hexDigits_mod (Nat.le_refl n), Nat.mul_add_mod', Nat.mod_eq_of_lt hy]
    rfl
  | succ m ih =>
    have hplace : (x * 16 ^ n + y) / 16 ^ (m + n) = x / 16 ^ m := by
      rw [Nat.pow_add, Nat.mul_comm (16 ^ m), ← Nat.div_div_eq_div_mul, Nat.mul_comm x,
        Nat.mul_add_div (Nat.pow_pos (by decide)), Nat.div_eq_of_lt hy, Nat.add_zero]
    rw [Nat.add_right_comm, hexDigits, ih, hplace, hexDigits, List.cons_append]

/-- The value of a concatenation is that of its upper part moved up, and that of its lower part (R38). -/
theorem toNat_append_eq_add {m n : Nat} (x : BitVec m) (y : BitVec n) :
    (x ++ y).toNat = x.toNat * 2 ^ n + y.toNat := by
  rw [BitVec.toNat_append, ← Nat.shiftLeft_add_eq_or_of_lt y.isLt, Nat.shiftLeft_eq]

/-- A request word is written as the digit of its operation bit and the sixteen digits of its operand field. -/
theorem writeRequest_append (op : BitVec 1) (operand : Pattern) :
    writeRequest (op ++ operand) =
      '0' :: 'x' :: (hexDigits 1 op.toNat ++ hexDigits 16 operand.toNat) := by
  have hlt : operand.toNat < 16 ^ 16 := operand.isLt
  rw [writeRequest, hexLiteral, toNat_append_eq_add]
  exact congrArg (fun digits => '0' :: 'x' :: digits) (hexDigits_mul_add hlt 1 op.toNat)

/-- The digits of a ligated value are those of high, then those of low (R96). -/
theorem hexDigits_append_halves (high low : Half) :
    hexDigits 16 (high ++ low).toNat = hexDigits 8 high.toNat ++ hexDigits 8 low.toNat := by
  have hlt : low.toNat < 16 ^ 8 := low.isLt
  rw [toNat_append_eq_add]
  exact hexDigits_mul_add hlt 8 high.toNat

/-! ## The obligations -/

/-- Settles O8: `readInstr_writeInstr`, with nothing and with a comment as the end of the line. -/
theorem writtenInvocationsReadBack : Obligations.WrittenInvocationsReadBack := by
  unfold Obligations.WrittenInvocationsReadBack
  intro sp i comment
  have hread := readInstr_writeInstr (tail := []) rfl sp i
  rw [List.append_nil] at hread
  exact ⟨hread, readInstr_writeInstr rfl sp i⟩

/-- Settles O9: the digits of the two concatenations the encoder writes; the line is the writer's own rule. -/
theorem writtenOrderOfTheHalves : Obligations.WrittenOrderOfTheHalves := by
  unfold Obligations.WrittenOrderOfTheHalves
  refine ⟨fun value => ?split, fun low high => ?ligate, fun low high => ?line⟩
  case split => exact writeRequest_append 0#1 value
  case ligate =>
    rw [encode, writeRequest_append, hexDigits_append_halves]
    rfl
  case line =>
    rw [writeInstr, writeHalf, writeHalf, hexLiteral, hexLiteral]
    simp

end Sys2Proof.Machine
end

section
/-!
PROOFS. The datapaths as functions (42_contract_and_numerics.md): they are bijections, commute with the bitwise
operations, are quotient and remainder by `2^32`, and carry each input bit to one output bit.
-/
namespace Sys2Proof.Machine

/-! ## Bijections (R62, R63) -/

theorem split_bijective : Function.Bijective split :=
  Function.bijective_iff_has_inverse.mpr
    ⟨fun p => ligate p.low p.high, ligate_split, fun p => split_ligate p.low p.high⟩

theorem ligate_bijective : Function.Bijective fun p : SplitPair => ligate p.low p.high :=
  Function.bijective_iff_has_inverse.mpr
    ⟨split, fun p => split_ligate p.low p.high, ligate_split⟩

/-- Exchanging two different halves gives another pair. -/
theorem exchanged_ne {low high : Half} (h : low ≠ high) : (⟨high, low⟩ : SplitPair) ≠ ⟨low, high⟩ := by
  rw [ne_eq, SplitPair.mk.injEq]
  exact fun ⟨_, heq⟩ => h heq

/-! ## Bitwise operations (R65) -/

theorem split_and (a b : Pattern) :
    split (a &&& b) = ⟨(split a).low &&& (split b).low, (split a).high &&& (split b).high⟩ := by
  simp [split, BitVec.extractLsb'_and]

theorem split_or (a b : Pattern) :
    split (a ||| b) = ⟨(split a).low ||| (split b).low, (split a).high ||| (split b).high⟩ := by
  simp [split, BitVec.extractLsb'_or]

theorem split_xor (a b : Pattern) :
    split (a ^^^ b) = ⟨(split a).low ^^^ (split b).low, (split a).high ^^^ (split b).high⟩ := by
  simp [split, BitVec.extractLsb'_xor]

theorem split_not (a : Pattern) : split (~~~a) = ⟨~~~(split a).low, ~~~(split a).high⟩ := by
  refine SplitPair.eq_of_getLsbD fun i hi => ⟨?low, ?high⟩
  case low =>
    rw [split_low_getLsbD _ i hi, BitVec.getLsbD_not, BitVec.getLsbD_not, split_low_getLsbD a i hi,
      decide_eq_true (by omega), decide_eq_true hi]
  case high =>
    rw [split_high_getLsbD _ i hi, BitVec.getLsbD_not, BitVec.getLsbD_not, split_high_getLsbD a i hi,
      decide_eq_true (by omega), decide_eq_true hi]

/-- What SPLIT commutes with, LIGATE commutes with, since SPLIT tells all patterns apart. -/
theorem ligate_and (l h l' h' : Half) :
    ligate (l &&& l') (h &&& h') = ligate l h &&& ligate l' h' :=
  split_bijective.injective (by simp [split_and])

theorem ligate_or (l h l' h' : Half) :
    ligate (l ||| l') (h ||| h') = ligate l h ||| ligate l' h' :=
  split_bijective.injective (by simp [split_or])

theorem ligate_xor (l h l' h' : Half) :
    ligate (l ^^^ l') (h ^^^ h') = ligate l h ^^^ ligate l' h' :=
  split_bijective.injective (by simp [split_xor])

theorem ligate_not (l h : Half) : ligate (~~~l) (~~~h) = ~~~(ligate l h) :=
  split_bijective.injective (by simp [split_not])

/-- Flipping bit 31 of high flips the sign bit alone: it is an XOR with the ligated pair `(0, 2^31)`. -/
theorem ligate_xor_sign (l h : Half) :
    ligate l (h ^^^ 0x80000000#32) = ligate l h ^^^ 0x8000000000000000#64 := by
  have hsign : ligate 0#32 0x80000000#32 = 0x8000000000000000#64 := by decide
  rw [← hsign, ← ligate_xor, BitVec.xor_zero]

/-! ## Unsigned values (R38, R66) -/

theorem split_low_toNat (p : Pattern) : (split p).low.toNat = p.toNat % 2 ^ 32 := by
  simp [split]

theorem split_high_toNat (p : Pattern) : (split p).high.toNat = p.toNat / 2 ^ 32 := by
  have hlt := p.isLt
  simp only [split, BitVec.extractLsb'_toNat, Nat.shiftRight_eq_div_pow]
  omega

/-! ## One bit in, one bit out (R48, R54) -/

/-- Flipping bit `k` of a vector flips that bit and no other. -/
theorem xor_twoPow_getLsbD {n : Nat} (x : BitVec n) {k : Nat} (hk : k < n) (i : Nat) :
    (x ^^^ BitVec.twoPow n k).getLsbD i = (x.getLsbD i ^^ decide (i = k)) := by
  rw [BitVec.getLsbD_xor, BitVec.getLsbD_twoPow, decide_eq_true hk, Bool.true_and]
  simp only [eq_comm]

theorem ligate_flip_low_getLsbD (low high : Half) {k : Nat} (hk : k < 32) (i : Nat) :
    (ligate (low ^^^ BitVec.twoPow 32 k) high).getLsbD i =
      ((ligate low high).getLsbD i ^^ decide (i = k)) := by
  rcases Nat.lt_or_ge i 32 with hlow | hhigh
  · rw [ligate_getLsbD_low _ _ hlow, ligate_getLsbD_low _ _ hlow, xor_twoPow_getLsbD low hk]
  · obtain ⟨j, rfl⟩ := Nat.exists_eq_add_of_le hhigh
    rw [ligate_getLsbD_high, ligate_getLsbD_high, decide_eq_false (by omega), Bool.xor_false]

theorem ligate_flip_high_getLsbD (low high : Half) {k : Nat} (hk : k < 32) (i : Nat) :
    (ligate low (high ^^^ BitVec.twoPow 32 k)).getLsbD i =
      ((ligate low high).getLsbD i ^^ decide (i = 32 + k)) := by
  rcases Nat.lt_or_ge i 32 with hlow | hhigh
  · rw [ligate_getLsbD_low _ _ hlow, ligate_getLsbD_low _ _ hlow, decide_eq_false (by omega),
      Bool.xor_false]
  · obtain ⟨j, rfl⟩ := Nat.exists_eq_add_of_le hhigh
    rw [ligate_getLsbD_high, ligate_getLsbD_high, xor_twoPow_getLsbD high hk]
    simp only [Nat.add_left_cancel_iff]

/-! ## The obligations -/

/-- Settles O26: each datapath is the other's inverse. -/
theorem operationsAreBijections : Obligations.OperationsAreBijections := by
  unfold Obligations.OperationsAreBijections
  exact ⟨split_bijective, ligate_bijective, ligate_bijective.existsUnique, split_bijective.existsUnique⟩

/-- Settles O27: the laws of the other builds follow from `ligate_split` and `split_ligate`, and the pattern of 1.0
has different halves. -/
theorem roundTripAloneDoesNotFixTheLayout : Obligations.RoundTripAloneDoesNotFixTheLayout := by
  unfold Obligations.RoundTripAloneDoesNotFixTheLayout
  refine ⟨ligate_split, ligate_split, fun low high => ?exchanged, fun f g hgf hfg => ⟨?_, ?_⟩, ?one, ?_⟩
  case exchanged => simp
  case one => decide
  · intro v
    rw [ligate_split, hgf]
  · intro low high
    rw [hfg, split_ligate]
  · exact exchanged_ne (by decide)

/-- Settles O28: `split_and` to `split_not`, `ligate_and` to `ligate_not`, and `ligate_xor_sign`. -/
theorem operationsCommuteWithBitwiseOperations :
    Obligations.OperationsCommuteWithBitwiseOperations := by
  unfold Obligations.OperationsCommuteWithBitwiseOperations
  exact ⟨fun a b => ⟨split_and a b, split_or a b, split_xor a b, split_not a⟩,
    fun l h l' h' => ⟨ligate_and l h l' h', ligate_or l h l' h', ligate_xor l h l' h', ligate_not l h⟩,
    ligate_xor_sign⟩

/-- Settles O29: the values and bits of the halves; the pattern is their concatenation by `ligate_split`. -/
theorem halvesAreQuotientAndRemainder : Obligations.HalvesAreQuotientAndRemainder := by
  unfold Obligations.HalvesAreQuotientAndRemainder
  intro p
  refine ⟨split_low_toNat p, split_high_toNat p, ?recombined,
    fun i hi => ⟨split_low_getLsbD p i hi, split_high_getLsbD p i hi⟩, (ligate_split p).symm⟩
  case recombined => rw [split_low_toNat, split_high_toNat, Nat.div_add_mod']

/-- Settles O35: a half shows the flipped bit at its own place, and the ligated value at its half's. -/
theorem eachInputBitReachesOneOutputBit : Obligations.EachInputBitReachesOneOutputBit := by
  unfold Obligations.EachInputBitReachesOneOutputBit
  refine ⟨fun v k hk i hi => ⟨?low, ?high⟩, fun low high k hk i _ =>
    ⟨ligate_flip_low_getLsbD low high hk i, ligate_flip_high_getLsbD low high hk i⟩⟩
  case low =>
    rw [split_low_getLsbD _ i hi, split_low_getLsbD _ i hi, xor_twoPow_getLsbD v hk]
  case high =>
    rw [split_high_getLsbD _ i hi, split_high_getLsbD _ i hi, xor_twoPow_getLsbD v hk]

/-- Settles O36: each output bit is one input bit of the mix. -/
theorem mixedInputsGiveMixedOutputs : Obligations.MixedInputsGiveMixedOutputs := by
  unfold Obligations.MixedInputsGiveMixedOutputs
  refine ⟨fun old new mix hmix i hi => ⟨?low, ?high⟩, fun old new mix hmix i hi => ?joined⟩
  case low =>
    simp only [split_low_getLsbD _ i hi]
    exact hmix i (by omega)
  case high =>
    simp only [split_high_getLsbD _ i hi]
    exact hmix (32 + i) (by omega)
  case joined =>
    rcases Nat.lt_or_ge i 32 with hlow | hhigh
    · simp only [ligate_getLsbD_low _ _ hlow]
      exact (hmix i hlow).left
    · obtain ⟨j, rfl⟩ := Nat.exists_eq_add_of_le hhigh
      simp only [ligate_getLsbD_high]
      exact (hmix j (by omega)).right

/-- Settles O37: `ligate_split` holds of every pattern, and there are two of them. -/
theorem closedLoopHasNoDeterminedValue : Obligations.ClosedLoopHasNoDeterminedValue := by
  unfold Obligations.ClosedLoopHasNoDeterminedValue
  refine ⟨ligate_split, fun h => ?_⟩
  exact absurd (h.unique (ligate_split 0#64) (ligate_split 1#64)) (by decide)

/-- Settles O23: SPLIT and LIGATE deliver what the datapaths wire, for every pattern and pair, whatever its class; the
vectors are computed. -/
theorem neitherOperationConvertsNumerically : Obligations.NeitherOperationConvertsNumerically := by
  unfold Obligations.NeitherOperationConvertsNumerically
  refine ⟨fun p _ => ⟨(split p).low, (split p).high, splitGives_iff.mpr rfl,
      ligateGives_iff.mpr (ligate_split p), ?bits⟩,
    fun low high _ => ⟨ligateGives_iff.mpr rfl, splitGives_iff.mpr (split_ligate low high)⟩, ?vectors⟩
  case bits => exact fun i hi => ⟨split_low_getLsbD p i hi, split_high_getLsbD p i hi⟩
  case vectors =>
    simp only [splitGives_iff, ligateGives_iff]
    decide

/-- Settles O31: the datapaths computed at the two zeros. -/
theorem signedZerosStayDistinct : Obligations.SignedZerosStayDistinct := by
  unfold Obligations.SignedZerosStayDistinct
  simp only [splitGives_iff, ligateGives_iff]
  decide

/-- Settles O32: LIGATE tells all pairs apart, and the exchanged pair is another one. -/
theorem exchangedHalvesGiveAnotherDouble : Obligations.ExchangedHalvesGiveAnotherDouble := by
  unfold Obligations.ExchangedHalvesGiveAnotherDouble
  intro low high h
  refine ⟨exchanged_ne h, ligate low high, ligate high low, ligateGives_iff.mpr rfl,
    ligateGives_iff.mpr rfl, fun hvalue => ?_⟩
  have hpair := congrArg split hvalue
  rw [split_ligate, split_ligate] at hpair
  exact exchanged_ne h hpair

end Sys2Proof.Machine
end

section
/-!
PROOFS. The source's procedures (40_split.md R49, 41_ligate.md R55, R56, 42_contract_and_numerics.md R68): the mask
keeps the lower half, the kind of shift or of widening only decides bits that the mask or the left shift drops, and words
with no common set bit add without a carry.
-/
namespace Sys2Proof.Machine

/-! ## Shifts and masks, bit by bit (R68) -/

theorem lowMask_getLsbD (i : Nat) : lowMask.getLsbD i = decide (i < 32) := by
  rw [lowMask, BitVec.getLsbD_ushiftRight, BitVec.getLsbD_allOnes, decide_eq_decide]
  omega

theorem and_lowMask_getLsbD (p : Pattern) (i : Nat) :
    (p &&& lowMask).getLsbD i = if i < 32 then p.getLsbD i else false := by
  rw [BitVec.getLsbD_and, lowMask_getLsbD]
  split <;> simp [*]

/-- Below bit 32 both kinds of right shift give the upper half. -/
theorem shiftRight32_getLsbD_low (k : ShiftKind) (p : Pattern) {i : Nat} (hi : i < 32) :
    (shiftRight32 k p).getLsbD i = p.getLsbD (32 + i) := by
  cases k with
  | logical => rw [shiftRight32, BitVec.getLsbD_ushiftRight]
  | arithmetic =>
    rw [shiftRight32, BitVec.getLsbD_sshiftRight, decide_eq_false (by omega), if_pos (by omega)]
    rfl

/-- From bit 32 on a logical right shift gives zeros. -/
theorem shiftRight32_logical_getLsbD_high (p : Pattern) {i : Nat} (hi : 32 ≤ i) :
    (shiftRight32 .logical p).getLsbD i = false := by
  rw [shiftRight32, BitVec.getLsbD_ushiftRight, BitVec.getLsbD_of_ge p _ (by omega)]

/-- From bit 32 on an arithmetic right shift repeats the sign bit. -/
theorem shiftRight32_arithmetic_getLsbD_high (p : Pattern) {i : Nat} (hi : 32 ≤ i) (hi' : i < 64) :
    (shiftRight32 .arithmetic p).getLsbD i = p.getLsbD 63 := by
  rw [shiftRight32, BitVec.getLsbD_sshiftRight, decide_eq_false (by omega), if_neg (by omega),
    BitVec.msb_eq_getLsbD_last]
  rfl

theorem shiftLeft32_getLsbD (p : Pattern) {i : Nat} (hi : i < 64) :
    (p <<< 32).getLsbD i = if i < 32 then false else p.getLsbD (i - 32) := by
  rw [BitVec.getLsbD_shiftLeft, decide_eq_true hi]
  split <;> simp [*]

/-- The OR of two words with no common set bit is their sum (R68 (d)). -/
theorem toNat_or_of_and_eq_zero {p q : Pattern} (h : p &&& q = 0#64) :
    (p ||| q).toNat = p.toNat + q.toNat := by
  rw [← BitVec.add_eq_or_of_and_eq_zero p q h, BitVec.toNat_add_of_and_eq_zero h]

theorem and_eq_zero_of_getLsbD {p q : Pattern}
    (h : ∀ k < 64, (p.getLsbD k && q.getLsbD k) = false) : p &&& q = 0#64 := by
  apply BitVec.eq_of_getLsbD_eq
  intro k hk
  rw [BitVec.getLsbD_and, h k hk, BitVec.getLsbD_zero]

/-! ## SPLIT's procedure (R49) -/

/-- Narrowing a masked word to its lower half keeps the word's own bits there. -/
theorem masked_low_getLsbD (p : Pattern) {i : Nat} (hi : i < 32) :
    ((p &&& lowMask).extractLsb' 0 32).getLsbD i = p.getLsbD i := by
  rw [BitVec.getLsbD_extractLsb', decide_eq_true hi, Bool.true_and, Nat.zero_add,
    and_lowMask_getLsbD, if_pos hi]

theorem splitProcedure_eq_split (k : ShiftKind) (p : Pattern) : splitProcedure k p = split p := by
  refine SplitPair.eq_of_getLsbD fun i hi => ⟨?low, ?high⟩
  case low =>
    rw [splitProcedure, masked_low_getLsbD p hi, split_low_getLsbD p i hi]
  case high =>
    rw [splitProcedure, masked_low_getLsbD _ hi, shiftRight32_getLsbD_low k p hi,
      split_high_getLsbD p i hi]

/-! ## LIGATE's procedure (R55) -/

/-- Both kinds of widening keep the half. -/
theorem widen64_getLsbD_low (k : WidenKind) (h : Half) {i : Nat} (hi : i < 32) :
    (widen64 k h).getLsbD i = h.getLsbD i := by
  cases k with
  | zeroExtend => rw [widen64, BitVec.getLsbD_setWidth, decide_eq_true (by omega), Bool.true_and]
  | signExtend =>
    rw [widen64, BitVec.getLsbD_signExtend, decide_eq_true (by omega), if_pos hi, Bool.true_and]

/-- The mask undoes a sign extension of low (90_conflicts.md C1). -/
theorem ligateLo64_eq_setWidth (k : WidenKind) (low : Half) :
    ligateLo64 k low = low.setWidth 64 := by
  apply BitVec.eq_of_getLsbD_eq
  intro i hi
  rw [ligateLo64, and_lowMask_getLsbD, BitVec.getLsbD_setWidth, decide_eq_true hi, Bool.true_and]
  split
  case isTrue hlow => exact widen64_getLsbD_low k low hlow
  case isFalse hhigh => exact (BitVec.getLsbD_of_ge low i (Nat.le_of_not_lt hhigh)).symm

/-- The left shift drops a sign extension of high. -/
theorem ligateHi64_eq_shiftLeft (k : WidenKind) (high : Half) :
    ligateHi64 k high = high.setWidth 64 <<< 32 := by
  apply BitVec.eq_of_getLsbD_eq
  intro i hi
  rw [ligateHi64, shiftLeft32_getLsbD _ hi, shiftLeft32_getLsbD _ hi]
  split
  case isTrue => rfl
  case isFalse hhigh =>
    rw [widen64_getLsbD_low k high (by omega), ← widen64_getLsbD_low .zeroExtend high (by omega)]
    rfl

theorem ligateProcedure_eq_ligate (kl kh : WidenKind) (low high : Half) :
    ligateProcedure kl kh low high = ligate low high := by
  rw [ligateProcedure, ligateHi64_eq_shiftLeft, ligateLo64_eq_setWidth,
    ← BitVec.setWidth_append_eq_shiftLeft_setWidth_or, BitVec.setWidth_eq, ligate]

/-- The upper word has bits from 32 on alone, the lower one below 32 alone. -/
theorem ligateHi64_and_ligateLo64 (kl kh : WidenKind) (low high : Half) :
    ligateHi64 kh high &&& ligateLo64 kl low = 0#64 := by
  apply and_eq_zero_of_getLsbD
  intro i hi
  rw [ligateHi64, ligateLo64, shiftLeft32_getLsbD _ hi, and_lowMask_getLsbD]
  split <;> simp

/-! ## The obligations -/

/-- Settles O17: `splitProcedure_eq_split`, and the mask clears bits 32 and up. -/
theorem splitProcedureComputesTheWiring : Obligations.SplitProcedureComputesTheWiring := by
  unfold Obligations.SplitProcedureComputesTheWiring
  refine fun k p => ⟨splitProcedure_eq_split k p, fun i hi => ?masked⟩
  case masked =>
    simp only [and_lowMask_getLsbD, if_neg (Nat.not_lt.mpr hi), and_self]

/-- Settles O21: `ligateProcedure_eq_ligate`; the two words share no bit, so their OR is their sum. -/
theorem ligateProcedureComputesTheWiring : Obligations.LigateProcedureComputesTheWiring := by
  unfold Obligations.LigateProcedureComputesTheWiring
  intro kl kh low high
  refine ⟨ligateProcedure_eq_ligate kl kh low high, ligateLo64_eq_setWidth kl low,
    ligateHi64_and_ligateLo64 kl kh low high, ?sum⟩
  case sum =>
    rw [← ligateProcedure_eq_ligate kl kh, ligateProcedure,
      toNat_or_of_and_eq_zero (ligateHi64_and_ligateLo64 kl kh low high)]

/-- Settles O22: SPLIT of the value gives each operand back; in the wrong build every upper bit is low's sign. -/
theorem ligateDoesNotSignExtend : Obligations.LigateDoesNotSignExtend := by
  unfold Obligations.LigateDoesNotSignExtend
  intro low high
  refine ⟨congrArg SplitPair.high (split_ligate low high), congrArg SplitPair.low (split_ligate low high),
    fun hsign => ?wrong⟩
  case wrong =>
    have hmsb : low.msb = true := hsign ▸ BitVec.msb_eq_getLsbD_last low
    apply BitVec.eq_of_getLsbD_eq
    intro i hi
    rw [BitVec.getLsbD_extractLsb', BitVec.getLsbD_or, BitVec.getLsbD_signExtend,
      if_neg (by omega), hmsb, BitVec.getLsbD_allOnes]
    simp [hi, (by omega : 32 + i < 64)]

/-- Settles O34: the mask computed, and the bits of the shifts and of the masked word. -/
theorem shiftAndMaskLaws : Obligations.ShiftAndMaskLaws := by
  unfold Obligations.ShiftAndMaskLaws
  refine ⟨by decide, fun p q i hi => ⟨?logical, ?arithmetic, shiftLeft32_getLsbD p hi,
    and_lowMask_getLsbD p i, fun h => toNat_or_of_and_eq_zero (and_eq_zero_of_getLsbD h)⟩⟩
  case logical =>
    split
    case isTrue hlow => exact shiftRight32_getLsbD_low .logical p hlow
    case isFalse hhigh => exact shiftRight32_logical_getLsbD_high p (Nat.le_of_not_lt hhigh)
  case arithmetic =>
    split
    case isTrue hlow => exact shiftRight32_getLsbD_low .arithmetic p hlow
    case isFalse hhigh => exact shiftRight32_arithmetic_getLsbD_high p (Nat.le_of_not_lt hhigh) hi

end Sys2Proof.Machine
end

section
/-!
PROOFS. The labels (30_encoding.md R34, 42_contract_and_numerics.md R70, 00_scope.md R9; log entry 5): where the fields
of a double lie in its halves, what a NaN is there, and the signed reading, which is the vector's own two's complement.
-/
namespace Sys2Proof.Machine

/-! ## Fields of a double (R34) -/

/-- A field of high is the field of the pattern that lies 32 bits further up. -/
theorem split_high_extractLsb' (p : Pattern) {start len : Nat} (h : start + len ≤ 32) :
    (split p).high.extractLsb' start len = p.extractLsb' (32 + start) len := by
  apply BitVec.eq_of_getLsbD_eq
  intro i hi
  rw [BitVec.getLsbD_extractLsb', BitVec.getLsbD_extractLsb', split_high_getLsbD p _ (by omega),
    Nat.add_assoc]

theorem exponent_eq (p : Pattern) : exponent p = (split p).high.extractLsb' 20 11 :=
  (split_high_extractLsb' p (by decide : 20 + 11 ≤ 32)).symm

theorem fraction_eq (p : Pattern) :
    fraction p = (split p).high.extractLsb' 0 20 ++ (split p).low := by
  rw [split_high_extractLsb' p (by decide), fraction]
  exact (BitVec.extractLsb'_append_extractLsb'_eq_extractLsb' (by decide : 32 = 0 + 32)).symm

/-- The fraction field is zero exactly when both its parts are. -/
theorem fraction_eq_zero_iff (p : Pattern) :
    fraction p = 0#52 ↔ (split p).high.extractLsb' 0 20 = 0#20 ∧ (split p).low = 0#32 := by
  simp only [fraction_eq, ← BitVec.toNat_inj, toNat_append_eq_add, BitVec.toNat_ofNat]
  omega

/-! ## NaNs (R70) -/

theorem isNaN_iff (p : Pattern) : isNaN p = true ↔ exponent p = 2047#11 ∧ fraction p ≠ 0#52 := by
  simp [isNaN]

/-- The two NaN classes are the patterns with exponent field all ones and fraction not zero. -/
theorem classOf_nan_iff (p : Pattern) :
    classOf p = .quietNaN ∨ classOf p = .signallingNaN ↔
      exponent p = 2047#11 ∧ fraction p ≠ 0#52 := by
  unfold classOf
  split_ifs <;> simp_all

/-! ## The signed reading (R9) -/

theorem signed32_eq_toInt (v : Half) : signed32 v = v.toInt := by
  rw [signed32, BitVec.toInt_eq_msb_cond, BitVec.msb_eq_getLsbD_last]
  rfl

/-! ## The obligations -/

/-- Settles O30: the fields through the halves; a NaN is an exponent of ones with a fraction that is not zero. -/
theorem fieldsOfTheDoubleInTheHalves : Obligations.FieldsOfTheDoubleInTheHalves := by
  unfold Obligations.FieldsOfTheDoubleInTheHalves
  intro p
  refine ⟨(split_high_getLsbD p 31 (by decide)).symm, exponent_eq p, fraction_eq p,
    (split_high_getLsbD p 19 (by decide)).symm, ?halves, ?classes⟩
  case halves => rw [isNaN_iff, ne_eq, fraction_eq_zero_iff, not_and_or, exponent_eq]
  case classes => rw [isNaN_iff, classOf_nan_iff]

/-- Settles O33: the signed reading is `BitVec.toInt`, whose sign, range and injectivity are the library's. -/
theorem signedReadingHasBit31AsItsSign : Obligations.SignedReadingHasBit31AsItsSign := by
  unfold Obligations.SignedReadingHasBit31AsItsSign
  simp only [signed32_eq_toInt]
  refine ⟨fun v => ⟨?sign, BitVec.le_toInt v, ?largest⟩, fun v u => BitVec.toInt_inj.mp, by decide⟩
  case sign =>
    have hmsb : v.msb = v.getLsbD 31 := BitVec.msb_eq_getLsbD_last v
    rw [← hmsb, BitVec.msb_eq_toInt, decide_eq_true_iff]
  case largest => exact Int.le_of_lt_add_one BitVec.toInt_lt

end Sys2Proof.Machine
end

section
/-!
PROOFS. Moves on the ports (10_state.md R17, R18, R22, 70_reset_and_hazards.md R99): the outputs follow the three input
ports, so states that agree on these agree on all six; what each kind of move leaves on them, alone, twice, together,
chained, and beside other blocks.
-/
namespace Sys2Proof.Machine

/-! ## Outputs are functions of inputs -/

theorem State.splitLowO_isSome (s : State) : s.splitLowO.isSome = s.splitValueI.isSome := by
  simp [State.splitLowO, State.splitOut]

theorem State.splitHighO_isSome (s : State) : s.splitHighO.isSome = s.splitValueI.isSome := by
  simp [State.splitHighO, State.splitOut]

theorem State.ligateValueO_isSome (s : State) :
    s.ligateValueO.isSome = (s.ligateLowI.isSome && s.ligateHighI.isSome) := by
  unfold State.ligateValueO
  cases s.ligateLowI <;> cases s.ligateHighI <;> rfl

/-- States that agree on the three input ports show the same on all six. -/
theorem State.samePorts_of_inputs {s t : State} (hsplit : s.splitValueI = t.splitValueI)
    (hlow : s.ligateLowI = t.ligateLowI) (hhigh : s.ligateHighI = t.ligateHighI) : s.SamePorts t := by
  refine ⟨hsplit, ?_, ?_, hlow, hhigh, ?_⟩
  · rw [State.splitLowO, State.splitOut, hsplit]; rfl
  · rw [State.splitHighO, State.splitOut, hsplit]; rfl
  · rw [State.ligateValueO, hlow, hhigh]; rfl

/-- Two exchanges of one instant may be listed in either order (20_memory.md R30 (c)). -/
theorem append_exchanges_perm (es : List Exchange) (e e' : Exchange) :
    (es ++ [e] ++ [e']).Perm (es ++ [e'] ++ [e]) := by
  rw [List.append_assoc, List.append_assoc]
  exact (List.Perm.swap e' e []).append_left es

/-- A step at the request word of an operation runs that operation. -/
theorem step_of_pending_encode {s : State} {i : Instr} {rest : List HostMove}
    (h : s.pending = .invoke (encode i) :: rest) : step s = exec i { s with pending := rest } := by
  rw [step_of_pending_cons h, runMove, decode_encode]

/-! ## The obligations -/

/-- Settles O38: the outputs of driven inputs, and when an output is defined. -/
theorem outputsFollowTheInputs : Obligations.OutputsFollowTheInputs := by
  unfold Obligations.OutputsFollowTheInputs
  exact ⟨fun s v h => ⟨State.splitLowO_of_driven h, State.splitHighO_of_driven h⟩,
    fun s low high hlow hhigh => State.ligateValueO_of_driven hlow hhigh,
    fun s => ⟨s.splitLowO_isSome, s.splitHighO_isSome, s.ligateValueO_isSome⟩⟩

/-- Settles O42: SPLIT and LIGATE drive different ports, so both orders drive all three to the same values and add the
same two exchanges. -/
theorem bothDatapathsAtOnce : Obligations.BothDatapathsAtOnce := by
  unfold Obligations.BothDatapathsAtOnce
  intro s v l h rest hpending
  refine ⟨_, (split v).low, (split v).high, ligate l h, step_of_pending_cons hpending,
    splitGives_iff.mpr rfl, ligateGives_iff.mpr rfl, State.splitLowO_of_driven rfl,
    State.splitHighO_of_driven rfl, State.ligateValueO_of_driven rfl rfl, rfl, ?same, ?other⟩
  case same => exact ⟨_, rfl, State.samePorts_of_inputs rfl rfl rfl, List.Perm.refl _⟩
  case other => exact ⟨_, rfl, State.samePorts_of_inputs rfl rfl rfl, append_exchanges_perm _ _ _⟩

/-- Settles O43: the second step ligates the halves the first one delivered, which `ligate_split` joins. -/
theorem hostChainsSplitIntoLigate : Obligations.HostChainsSplitIntoLigate := by
  unfold Obligations.HostChainsSplitIntoLigate
  intro s v hpending
  refine ⟨_, _, (split v).low, (split v).high,
    (step_of_pending_encode hpending).trans (exec_split _ _),
    State.splitLowO_of_driven rfl, State.splitHighO_of_driven rfl,
    (step_of_pending_encode rfl).trans (exec_ligate _ _ _), ?value, rfl, ?length⟩
  case value => rw [State.ligateValueO_of_driven rfl rfl, ligate_split]
  case length => simp

/-- Settles O44: the step of block `k` completes, and only entry `k` of the list is replaced. -/
theorem instancesDoNotInterfere : Obligations.InstancesDoNotInterfere := by
  unfold Obligations.InstancesDoNotInterfere
  intro k blocks s hk
  obtain ⟨t, ht⟩ := step_completes s
  obtain ⟨hlt, -⟩ := List.getElem?_eq_some_iff.mp hk
  refine ⟨t, blocks.set k t, ht, ?step, List.getElem?_set_self hlt,
    fun j hj => List.getElem?_set_ne hj.symm, List.length_set⟩
  case step => simp only [stepInstance, hk, ht]

/-- Settles O10: the head of the queue is taken and its word decoded. -/
theorem stepRunsTheDecodedRequest : Obligations.StepRunsTheDecodedRequest := by
  unfold Obligations.StepRunsTheDecodedRequest
  exact fun s w rest h => step_of_pending_cons h

/-- Settles O11: `step_of_pending_nil`, and `step_of_pending_cons` at the two other moves. -/
theorem stepMakesTheHostsOtherMoves : Obligations.StepMakesTheHostsOtherMoves := by
  unfold Obligations.StepMakesTheHostsOtherMoves
  exact ⟨fun s => step_of_pending_nil, fun s d rest h => step_of_pending_cons h,
    fun s v low high rest h => step_of_pending_cons h⟩

/-- Settles O16: `exec_split` names the state SPLIT leaves; the updates it makes touch nothing else. -/
theorem splitFrame : Obligations.SplitFrame := by
  unfold Obligations.SplitFrame
  intro value s t h
  obtain rfl : _ = t := by simpa [exec_split] using h
  simp [splitResponse, split]

/-- Settles O20: `exec_ligate` names the state LIGATE leaves; the updates it makes touch nothing else. -/
theorem ligateFrame : Obligations.LigateFrame := by
  unfold Obligations.LigateFrame
  intro low high s t h
  obtain rfl : _ = t := by simpa [exec_ligate] using h
  simp [ligateResponse, ligate]

/-- Settles O39: the released inputs are undriven, so their outputs are undefined; no other field is touched. -/
theorem releasedDatapathHasNoOutputs : Obligations.ReleasedDatapathHasNoOutputs := by
  unfold Obligations.ReleasedDatapathHasNoOutputs
  refine fun s rest => ⟨fun h => ⟨_, step_of_pending_cons h, ?split⟩,
    fun h => ⟨_, step_of_pending_cons h, ?ligate⟩⟩
  case split => exact ⟨rfl, rfl, rfl, rfl, rfl, rfl, rfl, rfl⟩
  case ligate => exact ⟨rfl, rfl, rfl, rfl, rfl, rfl, rfl, rfl⟩

/-- Settles O41: the second invocation drives the same inputs to the same values and adds the same exchange. -/
theorem invocationsAreRepeatable : Obligations.InvocationsAreRepeatable := by
  unfold Obligations.InvocationsAreRepeatable
  intro i s
  cases i with
  | split value =>
    exact ⟨_, _, _, exec_split value s, exec_split value _, State.samePorts_of_inputs rfl rfl rfl,
      rfl, rfl, rfl, rfl⟩
  | ligate low high =>
    exact ⟨_, _, _, exec_ligate low high s, exec_ligate low high _,
      State.samePorts_of_inputs rfl rfl rfl, rfl, rfl, rfl, rfl⟩

/-- Settles O47: the reset values, and a step with no move left. -/
theorem resetDrivesNothing : Obligations.ResetDrivesNothing := by
  unfold Obligations.ResetDrivesNothing
  exact ⟨rfl, rfl, rfl, rfl, rfl, rfl, rfl, rfl, step_of_pending_nil rfl⟩

/-- Settles O49: the record is empty at reset. -/
theorem resetTraceIsSound : Obligations.ResetTraceIsSound := by
  unfold Obligations.ResetTraceIsSound
  intro e he
  exact absurd he List.not_mem_nil

/-- Settles O51: both ligate inputs are undriven at reset. -/
theorem resetLigateInputsTogether : Obligations.ResetLigateInputsTogether := by
  unfold Obligations.ResetLigateInputsTogether
  rfl

end Sys2Proof.Machine
end
